-- ==== Sys2Proof/Word.lean ====
section
/-! DEFINITION. The two word sizes of the part: the value of a character or a payload byte, and a
counter, a cycle number or a check value. -/
namespace Sys2Proof

/-- The value of one character (R1), and so of every byte of a frame or payload. -/
abbrev Byte := BitVec 8

/-- A 16-bit value: a counter, a cycle number, a check (R9, R56, 00 Conventions). -/
abbrev Half := BitVec 16

end Sys2Proof
end

