-- ==== Sys2Proof/Syntax.lean ====
section
/-! DEFINITION. The commands of the part: one constructor of Instr for each row of
spec/opcode_table.json, with the operands its rule gives it. -/
namespace Sys2Proof

/-- The four branches (00, Conventions). -/
inductive Branch where
  | b0 | b1 | b2 | b3
  deriving DecidableEq, Repr

/-- A complete frame of the trunk or of a branch (R8): LEN is the length of the payload, and `check` is the
16-bit value of the two check characters. -/
structure LineFrame where
  address : Byte
  kind    : Byte
  /-- SEQ-or-TAG on the trunk, TOG on a branch. -/
  third   : Byte
  payload : List Byte
  check   : Half
  deriving DecidableEq, Repr

/-- What a receiver reports at the end of a character (R2): a character with a good stop bit, with its marker
bit and value, or a framing error. -/
inductive RxEvent where
  | character (marker : Bool) (value : Byte)
  | framingError
  deriving DecidableEq, Repr

/-- The causes of a branch fragment that leave the line to settle (R16, R72). The fourth cause, the gap, is the
row BRANCH_GAP. -/
inductive FragmentCause where
  | overLength | interrupted | framingError
  deriving DecidableEq, Repr

/-- The four tables that cannot be written (R165). -/
inductive ReadOnlyTable where
  | queue | flags | counters | pool
  deriving DecidableEq, Repr

/-- One command: one row of spec/opcode_table.json. A row that is a trunk frame carries the bytes of that frame
which the row does not fix. -/
inductive Instr where
  /-- POWER_ON: the strap values sampled at the end of power-on reset (R5, R183). -/
  | powerOn (sa : Fin 8) (tr : Fin 4)
  /-- PIN_RESET: the strap values sampled at the release of the pin (R5). -/
  | pinReset (sa : Fin 8) (tr : Fin 4)
  /-- TRUNK_FRAGMENT: the character or framing error that abandons the frame being assembled (R11). -/
  | trunkFragment (event : RxEvent)
  /-- TRUNK_GAP (R11). -/
  | trunkGap
  /-- TRUNK_FRAME_DISCARD: the complete frame, judged by R12. -/
  | trunkFrameDiscard (frame : LineFrame)
  /-- ACK: the third character and the payload (R142). -/
  | ack (next : Byte) (payload : List Byte)
  /-- RELAY: the node address, the tag and the payload (R92). -/
  | relay (address tag : Byte) (payload : List Byte)
  /-- MGMT_BAD_REQUEST: the tag and the whole payload (R159). -/
  | mgmtBadRequest (tag : Byte) (payload : List Byte)
  | readDevice (tag key item selector : Byte)
  | readBranch (tag key item selector : Byte)
  | readNode (tag key item selector : Byte)
  | readSched (tag key item selector : Byte)
  | readQueue (tag key item selector : Byte)
  | readFlags (tag key item selector : Byte)
  | readCounters (tag key item selector : Byte)
  | readPool (tag key item selector : Byte)
  /-- WRITE_DEVICE and the other writes: the key, the item and the bytes of the field items (R165). -/
  | writeDevice (tag key item : Byte) (fields : List Byte)
  | writeBranch (tag key item : Byte) (fields : List Byte)
  | writeNode (tag key item : Byte) (fields : List Byte)
  | writeSchedEntry (tag key item : Byte) (fields : List Byte)
  /-- WRITE_SCHED_HEADER: the item is the header item FFh (R165). -/
  | writeSchedHeader (tag key : Byte) (fields : List Byte)
  | writeReadOnlyTable (tag : Byte) (table : ReadOnlyTable) (key item : Byte) (fields : List Byte)
  | deleteNode (tag address : Byte)
  | resetHealth (tag address : Byte)
  | purge (tag address : Byte)
  | swap (tag branch : Byte)
  | setMode (tag branch mode : Byte)
  | clearFlags (tag group set : Byte)
  | clearCounters (tag group : Byte)
  | restart (tag : Byte)
  | trunkFrameEnd
  | retransmitTimerExpiry
  | cycleTick (b : Branch)
  | commandExpiry (b : Branch)
  | attemptFrameSent (b : Branch)
  | nothingHeard (b : Branch)
  /-- BRANCH_REPLY_COMPLETE: the whole frame handed to the engine (R16, R70). -/
  | branchReplyComplete (b : Branch) (frame : LineFrame)
  /-- BRANCH_FRAGMENT: the address of the broken frame and the cause (R16). -/
  | branchFragment (b : Branch) (address : Byte) (cause : FragmentCause)
  /-- BRANCH_GAP: the address of the broken frame (R16). -/
  | branchGap (b : Branch) (address : Byte)
  | settlingEnd (b : Branch)
  | syncSlotEnd (b : Branch)
  | gapSlotEnd (b : Branch)
  /-- SUPPLY_RISE: how many of the eight thresholds the supply stands above afterwards (R184, log 7). -/
  | supplyRise (b : Branch) (above : Fin 9)
  /-- SUPPLY_FALL: how many of the eight thresholds the supply stands above afterwards (R184, log 7). -/
  | supplyFall (b : Branch) (above : Fin 9)
  | qualifyTimerExpiry (b : Branch)
  | restoreTimerExpiry (b : Branch)
  /-- TRUNK_CHARACTER: a character with a good stop bit (R10). -/
  | trunkCharacter (marker : Bool) (value : Byte)
  /-- BRANCH_CHARACTER: a character with a good stop bit heard on BRXb (R15). -/
  | branchCharacter (b : Branch) (marker : Bool) (value : Byte)
  /-- MGMT_BAD_TABLE: a READ or a WRITE, its table, key and item, and the rest of the payload (the selector of a
  READ, the field items of a WRITE) (R159). -/
  | mgmtBadTable (tag : Byte) (write : Bool) (table key item : Byte) (rest : List Byte)
  deriving DecidableEq, Repr

end Sys2Proof
end

