-- ==== Sys2Proof/Decode.lean ====
section
/-! DEFINITION. The command a word of the opcode table spells. No row of spec/opcode_table.json has bits ("fields" is
empty in every row, and no row has "fixed"), so no word spells a command. -/
namespace Sys2Proof

/-- None of the table's rows gives bits, so there is nothing to read. -/
def decodeTableWord (_nbits _w : Nat) : Option Instr := none

end Sys2Proof
end

