-- ==== Sys2Proof/Machine/State.lean ====
section
/-! DEFINITION. The state of the part as plain data: every register, counter, queue, table, timer and mode the
manual gives it, the queue of commands that wait, and the state right after power-on. -/
namespace Sys2Proof.Machine

/-- One value for each branch. -/
structure Per (α : Type) where
  b0 : α
  b1 : α
  b2 : α
  b3 : α
  deriving DecidableEq, Repr

/-! ### The node table -/

/-- The health state of a record (R21). -/
inductive Health where
  | inactive | online | suspect | offline
  deriving DecidableEq, Repr

/-- The report mode of a record (R18, R77). -/
inductive ReportMode where
  | every | onChange | periodic
  deriving DecidableEq, Repr

/-- A node record: the configuration fields of R18 and the health fields of R19. -/
structure NodeRecord where
  address       : Nat
  branch        : Branch
  active        : Bool
  threshold     : Nat
  divisor       : Nat
  reportMode    : ReportMode
  reportPeriod  : Nat
  compareLength : Nat
  lifetime      : Nat
  health        : Health
  misses        : Nat
  countdown     : Nat
  pollsSince    : Nat
  toggle        : Bool
  lastValue     : Option (List Byte)
  okReplies     : Half
  totalMisses   : Half
  deriving DecidableEq, Repr

/-! ### Schedules, cycles and slots -/

/-- The line rates of a branch in bit/s (R6). -/
inductive LineRate where
  | r9600 | r19200 | r38400 | r57600 | r115200
  deriving DecidableEq, Repr

/-- A slot entry: its kind and the fields of that kind (R41). -/
inductive SlotEntry where
  | poll (node window retries : Nat)
  | sync
  | gap (length : Nat)
  deriving DecidableEq, Repr

/-- One bank: a slot list with its length, and a cycle period (R44). -/
structure Bank where
  entries : Vector SlotEntry 32
  length  : Nat
  period  : Nat
  deriving DecidableEq, Repr

/-- The active-bank marker (R44). -/
inductive BankName where
  | a | b
  deriving DecidableEq, Repr

/-- The operating mode of a branch (R102). -/
inductive Mode where
  | off | scheduled | onDemand
  deriving DecidableEq, Repr

/-- The cycle state of a branch engine (R53). -/
inductive CyclePhase where
  | stopped | waiting | running
  deriving DecidableEq, Repr

/-- The cycle state with its late mark, slot index and cycle number (R53, R56), and the cycle timer, stopped or
running with its count (R51). -/
structure Cycle where
  phase  : CyclePhase
  late   : Bool
  index  : Nat
  number : Half
  timer  : Option Nat
  deriving DecidableEq, Repr

/-- An entry of a downlink queue (R96). -/
structure Command where
  tag      : Byte
  node     : Nat
  payload  : List Byte
  age      : Nat
  lifetime : Nat
  deriving DecidableEq, Repr

/-- The in-flight command of a slot or transaction (R64). -/
structure InFlight where
  tag     : Byte
  node    : Nat
  payload : List Byte
  deriving DecidableEq, Repr

/-- The class of a failed attempt (R70). -/
inductive FailClass where
  | noReply | badCheck | wrongNode | badForm
  deriving DecidableEq, Repr

/-- The reply an OK attempt keeps (R64, R70). -/
structure SlotReply where
  kind    : Byte
  tog     : Byte
  payload : List Byte
  deriving DecidableEq, Repr

/-- The frame of a poll slot: POLL, or CMD with the sent toggle and the in-flight command (R64, R68). -/
inductive PollFrame where
  | poll
  | cmd (toggle : Bool) (command : InFlight)
  deriving DecidableEq, Repr

/-- The moment the three quiet character times of SETTLING count from (R72). -/
inductive QuietFrom where
  | handOver | lastCharacter | lineReturn
  deriving DecidableEq, Repr

/-- The phase of a slot (R64). -/
inductive Phase where
  | sending | listening | settling | holding
  deriving DecidableEq, Repr

/-- The fields of the slot record that a POLL slot or a transaction holds (R64, R91). -/
structure PollWork where
  node        : Nat
  window      : Nat
  retriesLeft : Nat
  frame       : PollFrame
  failure     : Option FailClass
  reply       : Option SlotReply
  quietFrom   : QuietFrom
  deriving DecidableEq, Repr

/-- The kind of the slot in progress with the fields of that kind (R64). -/
inductive SlotWork where
  | poll (work : PollWork)
  | sync
  | gap (remaining : Nat)
  deriving DecidableEq, Repr

/-- The slot record: the line rate in force when the slot started, the phase, and the work (R64). -/
structure SlotRecord where
  rate  : LineRate
  phase : Phase
  work  : SlotWork
  deriving DecidableEq, Repr

/-- The line unit of a branch (R15): what it sends, or the characters it has taken. -/
inductive LineUnit where
  | quiet
  | sending (frame : LineFrame)
  | hunting
  | receiving (taken : List Byte)
  deriving DecidableEq, Repr

/-- The counters of a branch group, in the order of the COUNTERS table (R89, R61, R112, R184). -/
structure BranchCounters where
  slotsRun         : Half
  slotsSkipped     : Half
  pollOk           : Half
  commandOk        : Half
  noReply          : Half
  lineErrors       : Half
  retries          : Half
  orphans          : Half
  cycles           : Half
  overruns         : Half
  suspended        : Half
  commandsAccepted : Half
  glitches         : Half
  deriving DecidableEq, Repr

/-! ### Supply supervision -/

/-- The state of a supply supervisor (R184). -/
inductive SupplyState where
  | disabled | restorePending | normal | lowPending | fault
  deriving DecidableEq, Repr

/-- A supervisor: its state, its two timers, its fault mark and its four settings (R184). -/
structure Supervisor where
  state       : SupplyState
  restore     : Option Nat
  qualify     : Option Nat
  faultMark   : Bool
  enabled     : Bool
  level       : Nat
  qualifyTime : Nat
  restoreTime : Nat
  deriving DecidableEq, Repr

/-! ### A branch -/

/-- Everything the part holds for one branch. `supply` is the input on BSNb: how many of the eight thresholds of
R184 the supply stands above (log 7). -/
structure BranchState where
  rate        : LineRate
  odWindow    : Nat
  odRetries   : Nat
  current     : Mode
  requested   : Mode
  supplyWait  : Bool
  cycle       : Cycle
  bankA       : Bank
  bankB       : Bank
  activeBank  : BankName
  swapPending : Bool
  queue       : List Command
  slot        : Option SlotRecord
  line        : LineUnit
  counters    : BranchCounters
  sup         : Supervisor
  supply      : Fin 9
  deriving DecidableEq, Repr

/-! ### The uplink pool and the Delivery Unit -/

/-- The class of an uplink entry (R115). -/
inductive UplinkClass where
  | mgmtResp | alert | result | report
  deriving DecidableEq, Repr

/-- The state of an entry the pool holds; a FREE entry holds nothing and is not listed (R115). -/
inductive EntryState where
  | queued
  | sent (seq : BitVec 4)
  deriving DecidableEq, Repr

/-- A QUEUED or SENT entry. Its admission place is its place in the pool's list (R116). -/
structure Entry where
  cls     : UplinkClass
  payload : List Byte
  state   : EntryState
  deriving DecidableEq, Repr

/-- The trunk state (R136). -/
inductive TrunkState where
  | down | up | retrying
  deriving DecidableEq, Repr

/-- The state of the Delivery Unit, its settings and its counters (R136, R155). `round` is the resend point of an
open retransmission round. -/
structure Delivery where
  trunk           : TrunkState
  nextSeq         : BitVec 4
  timer           : Option Nat
  timeoutCount    : Nat
  round           : Option (BitVec 4)
  transmitter     : Option LineFrame
  window          : Nat
  timeout         : Nat
  failLimit       : Nat
  framesSent      : Half
  retransmissions : Half
  staleAcks       : Half
  deriving DecidableEq, Repr

/-! ### The Event Unit -/

/-- The cause of the last reset (R182). -/
inductive RestartCause where
  | power | pin | warm
  deriving DecidableEq, Repr

/-- The flag set, enable set and pending mark of one group (R174), the sets as bytes (R191). -/
structure FlagGroup where
  flags   : Byte
  enables : Byte
  pending : Bool
  deriving DecidableEq, Repr

/-- The Event Unit: groups 0 to 3, group 4, the last-node bytes and the restart cause (R174). -/
structure EventUnit where
  groups   : Per FlagGroup
  device   : FlagGroup
  lastNode : Per Nat
  cause    : RestartCause
  deriving DecidableEq, Repr

/-! ### The trunk receiver -/

/-- The trunk receiver: HUNTING, or RECEIVING with the assembly buffer, whose length is the count (R10). -/
inductive Receiver where
  | hunting
  | receiving (taken : List Byte)
  deriving DecidableEq, Repr

/-- The receive counters of the trunk (R14). -/
structure RxCounters where
  good         : Half
  checkFails   : Half
  fragments    : Half
  badAddresses : Half
  deriving DecidableEq, Repr

/-! ### The whole part -/

/-- The state of the HX4. `strap` and `trunkRate` are the sampled strap values (R5); `muTag` is the tag of the
request in hand (R157); `pending` is the queue of commands that wait, first in first out; `ticks` is the model's
own counter, read by the free order of log 2. -/
structure State where
  strap            : Fin 8
  trunkRate        : Fin 4
  receiver         : Receiver
  rx               : RxCounters
  muTag            : Option Byte
  droppedResponses : Half
  nodes            : List NodeRecord
  branches         : Per BranchState
  pool             : List Entry
  credits          : Nat
  droppedReports   : Half
  relaysDropped    : Half
  du               : Delivery
  eu               : EventUnit
  pending          : List Instr
  ticks            : Nat
  deriving DecidableEq, Repr

/-- No command of the part ends in a fault: the manual gives every event, request and frame an outcome, refusals
and drops among them (00, About this manual). So nothing raises a fault and the type has no constructor. -/
inductive Fault where
  deriving DecidableEq, Repr

/-- The refusals. -/
inductive Refusal where
  /-- Raised by an arm of exec whose command has no meaning yet; safe, since nothing is proved of a refusal. No arm
  of this model raises it. -/
  | notModelled (mnemonic : String)
  deriving DecidableEq, Repr

/-! ### Reset values -/

/-- Every counter of a branch at 0 (R61, R90, R112, R184). -/
def BranchCounters.zero : BranchCounters :=
  ⟨0, 0, 0, 0, 0, 0, 0, 0, 0, 0, 0, 0, 0⟩

/-- A bank after power-on and pin reset (R62). -/
def Bank.reset : Bank :=
  { entries := Vector.replicate 32 (.gap 1), length := 0, period := 1000 }

/-- The cycle state and timer after every reset (R62, R63). -/
def Cycle.reset : Cycle :=
  { phase := .stopped, late := false, index := 0, number := 0, timer := none }

/-- A supervisor after power-on and pin reset (R184). -/
def Supervisor.reset : Supervisor :=
  { state := .disabled, restore := none, qualify := none, faultMark := false
    enabled := true, level := 3, qualifyTime := 10, restoreTime := 50 }

/-- A branch after power-on and pin reset (R6, R15, R62, R64, R111, R113, R184); the supply on its sense pin is an
input and is given (log 7). -/
def BranchState.reset (supply : Fin 9) : BranchState :=
  { rate := .r19200, odWindow := 20, odRetries := 1
    current := .off, requested := .off, supplyWait := false
    cycle := Cycle.reset, bankA := Bank.reset, bankB := Bank.reset
    activeBank := .a, swapPending := false, queue := [], slot := none, line := .quiet
    counters := BranchCounters.zero, sup := Supervisor.reset, supply := supply }

/-- The Delivery Unit after power-on and pin reset (R156, R155). -/
def Delivery.reset : Delivery :=
  { trunk := .down, nextSeq := 0, timer := none, timeoutCount := 0, round := none, transmitter := none
    window := 8, timeout := 20, failLimit := 6, framesSent := 0, retransmissions := 0, staleAcks := 0 }

/-- The Event Unit after power-on: every flag clear but RESTART (bit 0 of group 4), every enable of the group's own
flags set, group 4 pending, cause POWER (R183). -/
def EventUnit.reset : EventUnit :=
  let g : FlagGroup := { flags := 0, enables := 0x7F, pending := false }
  { groups := ⟨g, g, g, g⟩, device := { flags := 0x01, enables := 0x1F, pending := true }
    lastNode := ⟨0, 0, 0, 0⟩, cause := .power }

/-- The part right after power-on. The straps read 0 and every supply stands below every threshold: both are
inputs, DESIGN CHOICE (log 7, log 8), unsafe. Everything else is as the manual states it. -/
def State.reset : State :=
  let b := BranchState.reset 0
  { strap := 0, trunkRate := 0, receiver := .hunting, rx := ⟨0, 0, 0, 0⟩
    muTag := none, droppedResponses := 0
    nodes := [], branches := ⟨b, b, b, b⟩, pool := [], credits := 0
    droppedReports := 0, relaysDropped := 0
    du := Delivery.reset, eu := EventUnit.reset, pending := [], ticks := 0 }

end Sys2Proof.Machine
end

