-- ==== Sys2Proof/Machine/Ops.lean ====
section
/-! DEFINITION. Access to one branch, the saturating counters, the views the state computes, and the node table as a
map. -/
namespace Sys2Proof.Machine

/-! ### One value for each branch -/

/-- The value of branch `b`. -/
def Per.get {α : Type} (p : Per α) : Branch → α
  | .b0 => p.b0
  | .b1 => p.b1
  | .b2 => p.b2
  | .b3 => p.b3

/-- The same with branch `b`'s value replaced. -/
def Per.set {α : Type} (p : Per α) (b : Branch) (x : α) : Per α :=
  match b with
  | .b0 => { p with b0 := x }
  | .b1 => { p with b1 := x }
  | .b2 => { p with b2 := x }
  | .b3 => { p with b3 := x }

/-- Every branch's value under `f`. -/
def Per.map {α β : Type} (f : α → β) (p : Per α) : Per β :=
  ⟨f p.b0, f p.b1, f p.b2, f p.b3⟩

end Sys2Proof.Machine

namespace Sys2Proof

/-- The four branches in ascending number. -/
def Branch.all : List Branch := [.b0, .b1, .b2, .b3]

/-- The branch number (00, Conventions). -/
def Branch.toNat : Branch → Nat
  | .b0 => 0
  | .b1 => 1
  | .b2 => 2
  | .b3 => 3

/-- The branch of a number, none outside 0 to 3. -/
def Branch.ofNat? : Nat → Option Branch
  | 0 => some .b0
  | 1 => some .b1
  | 2 => some .b2
  | 3 => some .b3
  | _ => none

end Sys2Proof

namespace Sys2Proof.Machine

/-- What the part holds for branch `b`. -/
def State.br (s : State) (b : Branch) : BranchState := s.branches.get b

/-- Branch `b` changed by `f`, everything else kept. -/
def State.onBr (s : State) (b : Branch) (f : BranchState → BranchState) : State :=
  { s with branches := s.branches.set b (f (s.br b)) }

/-! ### Counters -/

/-- A 16-bit counter raised by one: at 65 535 it stays (00, Conventions, Counters). -/
def bump (c : Half) : Half := if c = 0xFFFF then c else c + 1

/-- A count raised by one, saturating at 255 (R19, polls since report). -/
def bump255 (n : Nat) : Nat := min (n + 1) 255

/-- A counter of branch `b` raised as `f` says. -/
def State.count (s : State) (b : Branch) (f : BranchCounters → BranchCounters) : State :=
  s.onBr b fun B => { B with counters := f B.counters }

/-! ### Views of a branch -/

/-- The other bank. -/
def BankName.other : BankName → BankName
  | .a => .b
  | .b => .a

/-- The bank of a name (R44). -/
def BranchState.bank (B : BranchState) : BankName → Bank
  | .a => B.bankA
  | .b => B.bankB

/-- The active bank (R44). -/
def BranchState.active (B : BranchState) : Bank := B.bank B.activeBank

/-- The standby bank changed by `f` (R44, R45). -/
def BranchState.onStandby (B : BranchState) (f : Bank → Bank) : BranchState :=
  match B.activeBank with
  | .a => { B with bankB := f B.bankB }
  | .b => { B with bankA := f B.bankA }

/-- The threshold of a level in volts (R184). -/
def thresholdVolts (level : Nat) : Nat := 15 + level

/-- Whether the comparator reports above with this supply at this level (R184): `supply` counts the thresholds the
supply stands above, from level 0 up. -/
def reportsAbove (supply : Fin 9) (level : Nat) : Bool := decide (level < supply.val)

/-- Whether the comparator of the branch reports above. -/
def BranchState.above (B : BranchState) : Bool := reportsAbove B.supply B.sup.level

/-- Whether slots and transactions may run and relays be accepted: NORMAL or LOW_PENDING (R92, R107, R185). -/
def SupplyState.usable : SupplyState → Bool
  | .normal | .lowPending => true
  | .disabled | .restorePending | .fault => false

/-- BPWb: off in DISABLED, on in every other state (R184). -/
def BranchState.powerOn (B : BranchState) : Bool := B.sup.state != .disabled

/-- BDEb: driven while the line unit sends (R4, R15). -/
def BranchState.driverEnable (B : BranchState) : Bool :=
  match B.line with
  | .sending _ => true
  | .quiet | .hunting | .receiving _ => false

/-- A change of mode is pending while the requested mode differs from the current mode (R102). -/
def BranchState.changePending (B : BranchState) : Bool := B.requested != B.current

/-- The command in flight on the branch, if any (R64). -/
def BranchState.inFlight (B : BranchState) : Option InFlight :=
  match B.slot with
  | some { work := .poll w, .. } =>
    match w.frame with
    | .cmd _ c => some c
    | .poll => none
  | _ => none

/-- The slot record of the poll slot or transaction in progress, with its phase. -/
def BranchState.pollWork (B : BranchState) : Option (Phase × PollWork) :=
  match B.slot with
  | some { phase := ph, work := .poll w, .. } => some (ph, w)
  | _ => none

/-! ### The node table -/

/-- The record held for an address, if any (R17). -/
def findNode (address : Nat) : List NodeRecord → Option NodeRecord
  | [] => none
  | r :: rest => if r.address = address then some r else findNode address rest

/-- The record of the lowest address above `address` (R20); the table is held in ascending address. -/
def nextNode (address : Nat) : List NodeRecord → Option NodeRecord
  | [] => none
  | r :: rest => if address < r.address then some r else nextNode address rest

/-- A record added at its place in ascending address (R28). -/
def insertNode (r : NodeRecord) : List NodeRecord → List NodeRecord
  | [] => [r]
  | q :: rest => if r.address < q.address then r :: q :: rest else q :: insertNode r rest

/-- The record of an address changed by `f`; nothing where no record holds the address. -/
def updateNode (address : Nat) (f : NodeRecord → NodeRecord) : List NodeRecord → List NodeRecord
  | [] => []
  | r :: rest => if r.address = address then f r :: rest else r :: updateNode address f rest

/-- The table without the record of an address (R38). -/
def removeNode (address : Nat) : List NodeRecord → List NodeRecord
  | [] => []
  | r :: rest => if r.address = address then rest else r :: removeNode address rest

/-- The record held for an address (R17). -/
def State.node? (s : State) (address : Nat) : Option NodeRecord := findNode address s.nodes

/-- The record of an address changed by `f`. -/
def State.onNode (s : State) (address : Nat) (f : NodeRecord → NodeRecord) : State :=
  { s with nodes := updateNode address f s.nodes }

/-- The most records the table holds (R17). -/
def maxRecords : Nat := 96

/-- The most entries a downlink queue holds (R96). -/
def queueDepth : Nat := 8

/-- The station address (R5). -/
def State.station (s : State) : Byte := 240#8 + BitVec.ofNat 8 s.strap.val

end Sys2Proof.Machine
end

