-- ==== Sys2Proof/Machine/Formats.lean ====
section
/-! DEFINITION. Characters, the check, frames and the byte layouts and codes of Formats (R1, R2, R3, R8, R9, R191). -/
namespace Sys2Proof.Machine

/-! ### Bytes -/

/-- The high byte of a two-byte field (R191). -/
def hi (h : Half) : Byte := h.extractLsb' 8 8

/-- The low byte of a two-byte field (R191). -/
def lo (h : Half) : Byte := h.extractLsb' 0 8

/-- A two-byte field, high byte first (R191). -/
def two (h : Half) : List Byte := [hi h, lo h]

/-- A one-byte field. -/
def byte (n : Nat) : Byte := BitVec.ofNat 8 n

/-- A two-byte field of a number (R191). -/
def twoNat (n : Nat) : List Byte := two (BitVec.ofNat 16 n)

/-- A yes/no value: 1 for yes or set, 0 for no or clear (R191). -/
def yesNo (v : Bool) : Byte := if v then 1 else 0

/-- The number of a field of one or two bytes, high byte first (R191). -/
def beNat (bytes : List Byte) : Nat := bytes.foldl (fun n v => 256 * n + v.toNat) 0

/-! ### Characters (R1, R2) -/

/-- The eleven bit levels of a character in the order they are sent: start bit 0, eight value bits least significant
first, the marker bit, stop bit 1 (R1). -/
def characterBits (marker : Bool) (value : Byte) : List Bool :=
  false :: ((List.range 8).map fun i => value.getLsbD i) ++ [marker, true]

/-- The value of eight bits, least significant first. -/
def bitsValue : List Bool → Nat
  | [] => 0
  | v :: rest => v.toNat + 2 * bitsValue rest

/-- What a receiver makes of the eleven levels it samples (R2): nothing after a false start, a framing error where the
stop bit is 0, and otherwise a character. -/
def sampleCharacter (bits : List Bool) : Option RxEvent :=
  match bits with
  | [start, v0, v1, v2, v3, v4, v5, v6, v7, marker, stop] =>
    if start then none
    else if stop then some (.character marker (byte (bitsValue [v0, v1, v2, v3, v4, v5, v6, v7])))
    else some .framingError
  | _ => none

/-- Where a receiver stands in finding a character (R2): looking for a fall of the line, sampling the bits of a
character, waiting for the end of a good stop bit, or waiting after a framing error for the line to return to 1. `left` is
how many samples of the line pass before the next one that is taken. -/
inductive Sampler where
  | looking
  | sampling (left : Nat) (taken : List Bool)
  | ending (left : Nat) (event : RxEvent)
  | heldLow
  deriving DecidableEq, Repr

/-- The event of a good stop bit, reported at the end of that bit (R2). -/
def Sampler.finish (left : Nat) (event : RxEvent) : Sampler × Option RxEvent :=
  match left with
  | 0 => (.looking, some event)
  | n + 1 => (.ending n event, none)

/-- The levels sampled so far at the middles of the bits (R2): a start bit back at 1 is a false start; ten or fewer, and
the next bit is sampled a whole bit time on; eleven are judged, and a bad stop bit is reported at once. -/
def Sampler.judge (half : Nat) (taken : List Bool) : Sampler × Option RxEvent :=
  if taken = [true] then (.looking, none)
  else if taken.length < 11 then (.sampling (2 * half - 1) taken, none)
  else
    match sampleCharacter taken with
    | some .framingError => (.heldLow, some .framingError)
    | some event => Sampler.finish (half - 1) event
    | none => (.looking, none)

/-- One sample of the line, `half` of them to half a bit time (R2): the middle of a bit is `half` samples after its
beginning. A receiver that comes back from a good stop bit to a line already at 0 takes that 0 as the fall, timed from the
end of the stop bit; R2 does not say, and this is the model's choice. DESIGN CHOICE (log 20). -/
def Sampler.next (half : Nat) (r : Sampler) (level : Bool) : Sampler × Option RxEvent :=
  match r with
  | .looking => (if level then .looking else .sampling (half - 1) [], none)
  | .sampling 0 taken => Sampler.judge half (taken ++ [level])
  | .sampling (n + 1) taken => (.sampling n taken, none)
  | .ending n event => Sampler.finish n event
  | .heldLow => (if level then .looking else .heldLow, none)

/-- What a receiver reports over a stretch of the line, and where it then stands (R2). -/
def Sampler.run (half : Nat) : Sampler → List Bool → Sampler × List RxEvent
  | r, [] => (r, [])
  | r, level :: rest =>
    let now := r.next half level
    let later := Sampler.run half now.1 rest
    (later.1, now.2.toList ++ later.2)

/-- The levels of a run of bits on the line, `half` samples to half a bit time (R1). -/
def lineLevels (half : Nat) (bits : List Bool) : List Bool := bits.flatMap fun v => List.replicate (2 * half) v

/-! ### The check (R9) -/

/-- One step of the check register (R9, step 3). -/
def checkStep (r : Half) : Half := if r.msb then (r <<< 1) ^^^ 0x1021#16 else r <<< 1

/-- `n` steps of the check register. -/
def checkSteps : Nat → Half → Half
  | 0, r => r
  | n + 1, r => checkSteps n (checkStep r)

/-- One value combined into the high eight bits, then eight steps (R9, steps 2 and 3). -/
def checkByte (r : Half) (v : Byte) : Half := checkSteps 8 (r ^^^ (v.setWidth 16 <<< 8))

/-- The check of a list of values (R9). -/
def checkOf (values : List Byte) : Half := values.foldl checkByte 0xFFFF#16

end Sys2Proof.Machine

namespace Sys2Proof

/-- The values the check is computed over: the address character to the last payload character (R8, R9). -/
def LineFrame.body (f : LineFrame) : List Byte :=
  f.address :: f.kind :: f.third :: Machine.byte f.payload.length :: f.payload

/-- Whether the check agrees (R9). -/
def LineFrame.checkAgrees (f : LineFrame) : Bool := f.check == Machine.checkOf f.body

/-- The values of the frame's characters in order (R8), check high byte first (R9). -/
def LineFrame.values (f : LineFrame) : List Byte := f.body ++ Machine.two f.check

/-- The frame's characters as they are sent, with their marker bits: 1 on the first, 0 on every other (R3). -/
def LineFrame.characters (f : LineFrame) : List (Bool × Byte) :=
  (true, f.address) :: (f.values.drop 1).map fun v => (false, v)

/-- The frame of these fields with the check of R9: what the HX4 sends. -/
def LineFrame.sealed (address kind third : Byte) (payload : List Byte) : LineFrame :=
  let f : LineFrame := { address, kind, third, payload, check := 0 }
  { f with check := Machine.checkOf f.body }

/-- The frame a row of character values is, where their count is 6 + LEN (R8, R10, R16). -/
def LineFrame.ofValues : List Byte → Option LineFrame
  | address :: kind :: third :: len :: rest =>
    match rest.drop len.toNat with
    | [h, l] => some { address, kind, third, payload := rest.take len.toNat, check := h ++ l }
    | _ => none
  | _ => none

end Sys2Proof

namespace Sys2Proof.Machine

/-! ### Reception of one more character (R10, R11, R15, R16) -/

/-- What a data character does to a frame being received. -/
inductive Taken where
  /-- The character is LEN and above the limit of the line. -/
  | overLength
  /-- The count has reached 6 + LEN. -/
  | complete (frame : LineFrame)
  /-- The frame goes on. -/
  | more (taken : List Byte)
  deriving DecidableEq, Repr

/-- A data character appended to the characters taken, with the LEN limit of the line judged at count 4
(R10, R11, R16). -/
def takeData (limit : Nat) (taken : List Byte) (value : Byte) : Taken :=
  if taken.length = 3 ∧ limit < value.toNat then .overLength
  else
    match LineFrame.ofValues (taken ++ [value]) with
    | some f => .complete f
    | none => .more (taken ++ [value])

/-- The LEN limit of the trunk (R8). -/
def trunkLenLimit : Nat := 32

/-- The LEN limit of a branch (R8). -/
def branchLenLimit : Nat := 24

/-! ### Codes (Formats) -/

/-- The trunk KINDs the controller sends. -/
def kindMgmtReq : Byte := 0x51
def kindAck : Byte := 0x52
def kindRelay : Byte := 0x53

/-- The trunk KIND of an uplink class. -/
def UplinkClass.kind : UplinkClass → Byte
  | .mgmtResp => 0x61
  | .alert => 0x62
  | .result => 0x63
  | .report => 0x64

/-- The branch KINDs the HX4 sends. -/
def kindPoll : Byte := 0x10
def kindCmd : Byte := 0x11
def kindSync : Byte := 0x12

/-- The branch KINDs a node sends. -/
def kindData : Byte := 0x20
def kindNodeAck : Byte := 0x21
def kindNodeNak : Byte := 0x22

/-- The statuses of a RESULT (R98). -/
inductive ResultStatus where
  | doneAck | doneNak | noReply | lineError | lineFault | expired | purged
  | branchOff | noRoute | nodeInactive | tooLong | queueFull
  deriving DecidableEq, Repr

def ResultStatus.code : ResultStatus → Byte
  | .doneAck => 0x00
  | .doneNak => 0x01
  | .noReply => 0x02
  | .lineError => 0x03
  | .lineFault => 0x04
  | .expired => 0x05
  | .purged => 0x06
  | .branchOff => 0x07
  | .noRoute => 0x08
  | .nodeInactive => 0x09
  | .tooLong => 0x0A
  | .queueFull => 0x0B

/-- The statuses of a management response (R159). -/
inductive Status where
  | ok | badRequest | badTable | badIndex | badValue | readOnly | busy | noEntry | tableFull
  deriving DecidableEq, Repr

def Status.code : Status → Byte
  | .ok => 0x00
  | .badRequest => 0x01
  | .badTable => 0x02
  | .badIndex => 0x03
  | .badValue => 0x04
  | .readOnly => 0x05
  | .busy => 0x06
  | .noEntry => 0x07
  | .tableFull => 0x08

def RestartCause.code : RestartCause → Byte
  | .power => 0x01
  | .pin => 0x02
  | .warm => 0x03

def Mode.code : Mode → Byte
  | .off => 0x00
  | .scheduled => 0x01
  | .onDemand => 0x02

/-- The mode of a code, none for an unlisted one (R193). -/
def Mode.ofByte? (v : Byte) : Option Mode :=
  if v = 0x00 then some .off
  else if v = 0x01 then some .scheduled
  else if v = 0x02 then some .onDemand
  else none

def LineRate.code : LineRate → Byte
  | .r9600 => 0x00
  | .r19200 => 0x01
  | .r38400 => 0x02
  | .r57600 => 0x03
  | .r115200 => 0x04

/-- The line rate of a code, none for an unlisted one (R6, R192). -/
def LineRate.ofNat? : Nat → Option LineRate
  | 0 => some .r9600
  | 1 => some .r19200
  | 2 => some .r38400
  | 3 => some .r57600
  | 4 => some .r115200
  | _ => none

/-- A line rate in bit/s (R6). -/
def LineRate.bitsPerSecond : LineRate → Nat
  | .r9600 => 9600
  | .r19200 => 19200
  | .r38400 => 38400
  | .r57600 => 57600
  | .r115200 => 115200

/-- The trunk rate of a strap value in bit/s (R5). -/
def trunkBitsPerSecond (tr : Fin 4) : Nat :=
  match tr with
  | 0 => 115200
  | 1 => 230400
  | 2 => 460800
  | 3 => 921600

def ReportMode.code : ReportMode → Byte
  | .every => 0x00
  | .onChange => 0x01
  | .periodic => 0x02

/-- The report mode of a code, none for an unlisted one (R192). -/
def ReportMode.ofNat? : Nat → Option ReportMode
  | 0 => some .every
  | 1 => some .onChange
  | 2 => some .periodic
  | _ => none

def Health.code : Health → Byte
  | .inactive => 0x00
  | .online => 0x01
  | .suspect => 0x02
  | .offline => 0x03

def SupplyState.code : SupplyState → Byte
  | .disabled => 0x00
  | .restorePending => 0x01
  | .normal => 0x02
  | .lowPending => 0x03
  | .fault => 0x04

def BankName.code : BankName → Byte
  | .a => 0x00
  | .b => 0x01

def TrunkState.code : TrunkState → Byte
  | .down => 0x00
  | .up => 0x01
  | .retrying => 0x02

end Sys2Proof.Machine

namespace Sys2Proof

/-- The byte of a branch number. -/
def Branch.byte (b : Branch) : Byte := Machine.byte b.toNat

end Sys2Proof

namespace Sys2Proof.Machine

/-! ### Frames and payloads the HX4 builds -/

/-- A POLL frame (R68). -/
def pollFrame (node : Nat) : LineFrame := LineFrame.sealed (byte node) kindPoll 0 []

/-- A CMD frame (R68). -/
def cmdFrame (node : Nat) (toggle : Bool) (payload : List Byte) : LineFrame :=
  LineFrame.sealed (byte node) kindCmd (yesNo toggle) payload

/-- A SYNC frame (R82). -/
def syncFrame (b : Branch) (number : Half) : LineFrame :=
  LineFrame.sealed 0 kindSync 0 (b.byte :: two number)

/-- The frame of a poll slot or transaction (R68). -/
def PollWork.lineFrame (w : PollWork) : LineFrame :=
  match w.frame with
  | .poll => pollFrame w.node
  | .cmd toggle c => cmdFrame w.node toggle c.payload

/-- A REPORT payload (R81, R128). -/
def reportPayload (node : Nat) (b : Branch) (number : Half) (reply : List Byte) : List Byte :=
  byte node :: b.byte :: two number ++ byte reply.length :: reply

/-- A RESULT payload (R129). -/
def resultPayload (tag : Byte) (node : Nat) (status : ResultStatus) (reply : List Byte) : List Byte :=
  tag :: byte node :: status.code :: byte reply.length :: reply

/-- A MGMT_RESP payload (R130). -/
def responsePayload (tag : Byte) (status : Status) (data : List Byte) : List Byte :=
  tag :: status.code :: data

end Sys2Proof.Machine
end

