-- ==== Sys2Proof/Machine/Flags.lean ====
section
/-! DEFINITION. The Event Unit: flags, signals, pending marks and the alert snapshot (R174 to R183). -/
namespace Sys2Proof.Machine

/-- The flags of a branch group (R174). -/
inductive BranchFlag where
  | nodeLost | nodeBack | cycleOverrun | commandExpired | swapDone | supplyFault | supplyRestored
  deriving DecidableEq, Repr

/-- The flags of the device group (R174). -/
inductive DeviceFlag where
  | restart | reportDropped | relayDropped | mgmtDropped | trunkRecovered
  deriving DecidableEq, Repr

/-- The set of one flag of a branch group, by its bit (R191, Formats). -/
def BranchFlag.mask : BranchFlag → Byte
  | .nodeLost => 0x01
  | .nodeBack => 0x02
  | .cycleOverrun => 0x04
  | .commandExpired => 0x08
  | .swapDone => 0x10
  | .supplyFault => 0x20
  | .supplyRestored => 0x40

/-- The set of one flag of the device group, by its bit (R191, Formats). -/
def DeviceFlag.mask : DeviceFlag → Byte
  | .restart => 0x01
  | .reportDropped => 0x02
  | .relayDropped => 0x04
  | .mgmtDropped => 0x08
  | .trunkRecovered => 0x10

/-- Every flag of a branch group. -/
def branchFlagSet : Byte := 0x7F

/-- Every flag of the device group. -/
def deviceFlagSet : Byte := 0x1F

/-- The five groups (R174). -/
inductive Group where
  | branch (b : Branch)
  | device
  deriving DecidableEq, Repr

/-- The group of a number, none above 4 (R193). -/
def Group.ofNat? (n : Nat) : Option Group :=
  if n = 4 then some .device else (Branch.ofNat? n).map .branch

/-- The flags a group has (R174). -/
def Group.flagSet : Group → Byte
  | .branch _ => branchFlagSet
  | .device => deviceFlagSet

/-- A signal of the flag of `mask`: a clear flag becomes set, and the group becomes pending where the flag's enable is
set; a set flag changes nothing (R175). -/
def FlagGroup.raise (g : FlagGroup) (mask : Byte) : FlagGroup :=
  if g.flags &&& mask = 0 then
    { g with flags := g.flags ||| mask, pending := g.pending || (g.enables &&& mask != 0) }
  else g

/-- The flags of `set` cleared; the pending mark and the enables are kept (R170). -/
def FlagGroup.clear (g : FlagGroup) (set : Byte) : FlagGroup := { g with flags := g.flags &&& ~~~set }

/-- The group of a number in the Event Unit. -/
def EventUnit.group (eu : EventUnit) : Group → FlagGroup
  | .branch b => eu.groups.get b
  | .device => eu.device

/-- One group changed by `f`. -/
def EventUnit.onGroup (eu : EventUnit) (g : Group) (f : FlagGroup → FlagGroup) : EventUnit :=
  match g with
  | .branch b => { eu with groups := eu.groups.set b (f (eu.groups.get b)) }
  | .device => { eu with device := f eu.device }

/-- The last-node byte a group shows: 0 for group 4 (R174). -/
def EventUnit.lastNodeByte (eu : EventUnit) : Group → Byte
  | .branch b => byte (eu.lastNode.get b)
  | .device => 0

/-- A signal in branch group `b` (R175). -/
def State.signal (s : State) (b : Branch) (f : BranchFlag) : State :=
  { s with eu := s.eu.onGroup (.branch b) (·.raise f.mask) }

/-- A signal in the device group (R175). -/
def State.signalDevice (s : State) (f : DeviceFlag) : State :=
  { s with eu := s.eu.onGroup .device (·.raise f.mask) }

/-- A node event: the signal, and the last-node byte written whatever the flag held (R176). -/
def State.signalNode (s : State) (b : Branch) (f : BranchFlag) (address : Nat) : State :=
  let s := s.signal b f
  { s with eu := { s.eu with lastNode := s.eu.lastNode.set b address } }

/-- Whether some group is pending (R139). -/
def EventUnit.anyPending (eu : EventUnit) : Bool :=
  eu.groups.b0.pending || eu.groups.b1.pending || eu.groups.b2.pending || eu.groups.b3.pending || eu.device.pending

/-- The groups in ascending number with their bit of the group mask (Formats). -/
def groupBits : List (Group × Byte) :=
  [(.branch .b0, 0x01), (.branch .b1, 0x02), (.branch .b2, 0x04), (.branch .b3, 0x08), (.device, 0x10)]

/-- The pending groups, in ascending number, with their bits. -/
def EventUnit.pendingGroups (eu : EventUnit) : List (Group × Byte) :=
  groupBits.filter fun g => (eu.group g.1).pending

/-- The payload of an ALERT: the restart cause, the mask of the pending groups, and for each of them its whole flag set
and its last-node byte (R131, R179). -/
def EventUnit.snapshot (eu : EventUnit) : List Byte :=
  eu.cause.code :: eu.pendingGroups.foldl (fun m g => m ||| g.2) 0 ::
    eu.pendingGroups.flatMap fun g => [(eu.group g.1).flags, eu.lastNodeByte g.1]

/-- The Event Unit after a snapshot: every pending mark cleared, since every pending group is carried (R179). -/
def EventUnit.told (eu : EventUnit) : EventUnit :=
  { eu with groups := eu.groups.map fun g => { g with pending := false }
            device := { eu.device with pending := false } }

/-- The Event Unit at a reset: flags, marks and last-node bytes cleared, the cause set, and RESTART signalled; the
enables are every flag of the group after power-on and pin reset, and kept at a warm restart (R183). -/
def EventUnit.atReset (eu : EventUnit) (cause : RestartCause) : EventUnit :=
  let clean (all : Byte) (g : FlagGroup) : FlagGroup :=
    { flags := 0, enables := if cause = .warm then g.enables else all, pending := false }
  let eu : EventUnit :=
    { groups := eu.groups.map (clean branchFlagSet), device := clean deviceFlagSet eu.device
      lastNode := ⟨0, 0, 0, 0⟩, cause := cause }
  eu.onGroup .device (·.raise DeviceFlag.restart.mask)

end Sys2Proof.Machine
end

