-- ==== Sys2Proof/Machine/Pool.lean ====
section
/-! DEFINITION. The uplink pool: occupancy, the admission tests of each class, and credits (R115 to R127). -/
namespace Sys2Proof.Machine

/-- The entries of the pool (R115). -/
def poolSize : Nat := 48

/-- The report ceiling (R124). -/
def reportCeiling : Nat := 40

/-- The most MGMT_RESP entries that are QUEUED (R121). -/
def responseLimit : Nat := 4

/-- Whether an entry is QUEUED (R115). -/
def Entry.isQueued (e : Entry) : Bool := e.state == .queued

/-- How many entries of a class are QUEUED (R133). -/
def State.queuedCount (s : State) (c : UplinkClass) : Nat :=
  s.pool.countP fun e => e.isQueued && e.cls == c

/-- How many entries are SENT (R133, R136). -/
def State.sentCount (s : State) : Nat := s.pool.countP fun e => !e.isQueued

/-- The occupancy O: QUEUED + SENT + C (06, Room and ceilings). -/
def State.occupancy (s : State) : Nat := s.pool.length + s.credits

/-- One entry joins the pool's list at its end as QUEUED (R116, R117). -/
def State.addEntry (s : State) (c : UplinkClass) (payload : List Byte) : State :=
  { s with pool := s.pool ++ [{ cls := c, payload := payload, state := .queued }] }

/-- A credit reserved for an accepted command (R118, R126). -/
def State.reserve (s : State) : State := { s with credits := s.credits + 1 }

/-- A credit converts into a RESULT, which is always admitted (R122). -/
def State.convert (s : State) (tag : Byte) (node : Nat) (status : ResultStatus) (reply : List Byte) : State :=
  { s.addEntry .result (resultPayload tag node status reply) with credits := s.credits - 1 }

/-- A RESULT notice, with no credit behind it (R94, R123). -/
def State.notice (s : State) (tag : Byte) (node : Nat) (status : ResultStatus) : State :=
  s.addEntry .result (resultPayload tag node status [])

/-- Queued commands leave with a RESULT each, in the order given, and no reply bytes (R97). -/
def State.convertAll (s : State) (status : ResultStatus) : List Command → State
  | [] => s
  | c :: rest => (s.convert c.tag c.node status []).convertAll status rest

/-- Every entry of DQb leaves with a RESULT of this status (R97, R104, R187). -/
def State.flushQueue (s : State) (b : Branch) (status : ResultStatus) : State :=
  (s.onBr b fun B => { B with queue := [] }).convertAll status (s.br b).queue

/-- Every entry of DQb for a node leaves with PURGED (R97, R100). -/
def State.purgeQueue (s : State) (address : Nat) (b : Branch) : State :=
  (s.onBr b fun B => { B with queue := B.queue.filter fun c => c.node != address }).convertAll .purged
    ((s.br b).queue.filter fun c => c.node == address)

/-- Every entry for a node in DQ0 to DQ3 leaves with PURGED, queue by queue (R38, R97, R100). -/
def State.purgeAll (s : State) (address : Nat) : State :=
  (((s.purgeQueue address .b0).purgeQueue address .b1).purgeQueue address .b2).purgeQueue address .b3

end Sys2Proof.Machine
end

