-- ==== Sys2Proof/Machine/Delivery.lean ====
section
/-! DEFINITION. The Delivery Unit: the arbiter, sequence numbers, acknowledgements, rounds and the trunk states
(R136 to R156), and the meanings of its own commands. -/
namespace Sys2Proof.Machine

/-! ### Choosing and sending -/

/-- The frame sent for an entry: the station address, the KIND of its class, its sequence number, its payload (R137). -/
def State.uplinkFrame (s : State) (e : Entry) (seq : BitVec 4) : LineFrame :=
  LineFrame.sealed s.station e.cls.kind (seq.setWidth 8) e.payload

/-- The oldest QUEUED entry of a class, and the list with that entry SENT under `seq` (R116, R140). -/
def markSent (c : UplinkClass) (seq : BitVec 4) : List Entry → Option (Entry × List Entry)
  | [] => none
  | e :: rest =>
    if e.state = .queued ∧ e.cls = c then some (e, { e with state := .sent seq } :: rest)
    else (markSent c seq rest).map fun r => (r.1, e :: r.2)

/-- A first transmission of the oldest QUEUED entry of a class, if there is one: it takes the next sequence number,
becomes SENT, and starts the timer where nothing was SENT (R137, R140, R146). -/
def State.firstTransmission (s : State) (c : UplinkClass) : Option State :=
  match markSent c s.du.nextSeq s.pool with
  | none => none
  | some (e, pool) =>
    some { s with
      pool := pool
      du := { s.du with
        nextSeq := s.du.nextSeq + 1
        timer := if s.sentCount = 0 then some 0 else s.du.timer
        transmitter := some (s.uplinkFrame e s.du.nextSeq)
        framesSent := bump s.du.framesSent } }

/-- An ALERT asked of the pool: with a group pending and room, the snapshot is taken into a new entry, which is sent at
once (R125, R139, R179). -/
def State.sendAlert (s : State) : Option State :=
  if s.eu.anyPending ∧ s.occupancy < poolSize then
    State.firstTransmission { s.addEntry .alert s.eu.snapshot with eu := s.eu.told } .alert
  else none

/-- The resend of the SENT entry at the resend point; the point advances, and the round closes as the resend begins
where no SENT entry lies beyond (R139, R149). -/
def State.resend (s : State) (point : BitVec 4) : State :=
  match s.pool.find? fun e => e.state == .sent point with
  | none => s
  | some e =>
    { s with du := { s.du with
        round := if point + 1 = s.du.nextSeq then none else some (point + 1)
        transmitter := some (s.uplinkFrame e point)
        framesSent := bump s.du.framesSent
        retransmissions := bump s.du.retransmissions } }

/-- The arbiter takes the first that applies: resend, window, response, alert, result, report, nothing (R139). -/
def State.arbiter (s : State) : State :=
  match s.du.round with
  | some point => s.resend point
  | none =>
    if s.du.window ≤ s.sentCount then s
    else
      match s.firstTransmission .mgmtResp with
      | some t => t
      | none =>
        match s.sendAlert with
        | some t => t
        | none =>
          match s.firstTransmission .result with
          | some t => t
          | none => (s.firstTransmission .report).getD s

/-- The Delivery Unit's choice: made with the transmitter free and the trunk UP or RETRYING (R138). -/
def State.choice (s : State) : State :=
  if s.du.transmitter = none ∧ s.du.trunk ≠ .down then s.arbiter else s

/-! ### The SENT list -/

/-- The sequence number of the oldest SENT entry, where some are: SENT numbers are consecutive and the newest is the one
before the next sequence number (R140, R142). DEDUCED (log 15). -/
def State.oldestSeq (s : State) : BitVec 4 := s.du.nextSeq - BitVec.ofNat 4 s.sentCount

/-! ### Proof of the controller (R151) -/

/-- The arrival of a good frame, before it is handed on: a trunk that is DOWN comes UP (R151); in UP and RETRYING nothing
changes (R150). -/
def State.recover (s : State) : State :=
  match s.du.trunk with
  | .up | .retrying => s
  | .down =>
    let s := { s with du := { s.du with trunk := .up, timeoutCount := 0 } }
    let s := s.signalDevice .trunkRecovered
    let s :=
      if s.sentCount = 0 then s
      else { s with du := { s.du with round := some s.oldestSeq, timer := some 0 } }
    s.choice

/-- A good frame (R12 step 5, R13): TRX is HUNTING with an empty buffer, the good-frame counter rises, the arrival is
presented to the Delivery Unit, the block that takes the frame acts, and the Delivery Unit chooses where it can
(R138, log 9). -/
def State.goodFrame (s : State) (act : State → State) : State :=
  let s := { s with receiver := .hunting, rx := { s.rx with good := bump s.rx.good } }
  (act s.recover).choice

/-! ### Acknowledgements -/

/-- Progress: the `d` oldest SENT entries are freed (R143). -/
def State.progress (s : State) (d : Nat) : State :=
  let oldest := s.oldestSeq
  let freed (q : BitVec 4) : Bool := decide ((q - oldest).toNat < d)
  let pool := s.pool.filter fun e =>
    match e.state with
    | .queued => true
    | .sent q => !freed q
  let t := { s with pool := pool }
  let remain := t.sentCount
  { t with du := { s.du with
      timeoutCount := 0
      trunk := if s.du.trunk = .retrying then .up else s.du.trunk
      timer := if remain = 0 then none else some 0
      round :=
        match s.du.round with
        | none => none
        | some p =>
          if remain = 0 then none
          else if freed p then some (oldest + BitVec.ofNat 4 d)
          else some p } }

/-- A stale or malformed acknowledgement is counted and changes nothing else (R142, R145). -/
def State.staleAck (s : State) : State := { s with du := { s.du with staleAcks := bump s.du.staleAcks } }

/-- An acknowledgement judged against the SENT list (R142 to R145). -/
def State.takeAck (s : State) (next : Byte) (payload : List Byte) : State :=
  if 15 < next.toNat ∨ payload ≠ [] then s.staleAck
  else
    let n := s.sentCount
    let d := (next.setWidth 4 - s.oldestSeq).toNat
    if n = 0 then s
    else if d = 0 then s
    else if d ≤ n then s.progress d
    else s.staleAck

/-- ACK (R142): the good frame's arrival, then the judgement. -/
def execAck (next : Byte) (payload : List Byte) (s : State) : Host.Outcome State Fault Refusal :=
  .next (s.goodFrame fun s => s.takeAck next payload)

/-! ### The transmitter and the timer -/

/-- TRUNK_FRAME_END (R137): the last stop bit ends, the transmitter is free, and the Delivery Unit chooses. -/
def execTrunkFrameEnd (s : State) : Host.Outcome State Fault Refusal :=
  .next <|
    match s.du.transmitter with
    | none => s
    | some _ => State.choice { s with du := { s.du with transmitter := none } }

/-- An expiry of the retransmit timer: below the fail limit a round opens at the oldest SENT entry, the timer restarts
and the trunk is RETRYING; at or above it the trunk is DOWN (R147, R148). -/
def State.expire (s : State) : State :=
  let n := s.du.timeoutCount + 1
  if n < s.du.failLimit then
    { s with du := { s.du with timeoutCount := n, round := some s.oldestSeq, timer := some 0, trunk := .retrying } }
  else { s with du := { s.du with timeoutCount := n, round := none, timer := none, trunk := .down } }

/-- RETRANSMIT_TIMER_EXPIRY (R146, R147): a stopped timer does not expire (log 3). -/
def execRetransmitTimerExpiry (s : State) : Host.Outcome State Fault Refusal :=
  .next <|
    match s.du.timer with
    | none => s
    | some _ => s.expire.choice

end Sys2Proof.Machine
end

