-- ==== Sys2Proof/Machine/Engine.lean ====
section
/-! DEFINITION. The branch engine: swaps, cycles, slots, transactions, attempts, the write-back, mode changes and the
supply supervisor's effects on them (R22 to R27, R48 to R91, R102 to R111, R184 to R190). -/
namespace Sys2Proof.Machine

/-! ### Small changes of a branch -/

/-- The cycle state of branch `b` changed by `f`. -/
def State.onCycle (s : State) (b : Branch) (f : Cycle → Cycle) : State :=
  s.onBr b fun B => { B with cycle := f B.cycle }

/-- The supervisor of branch `b` changed by `f`. -/
def State.onSup (s : State) (b : Branch) (f : Supervisor → Supervisor) : State :=
  s.onBr b fun B => { B with sup := f B.sup }

/-! ### Swaps and ageing -/

/-- A swap of branch `b` taken: the marker flips, swap-pending clears, SWAP_DONE is signalled (R48). -/
def State.takeSwap (s : State) (b : Branch) : State :=
  (s.onBr b fun B => { B with activeBank := B.activeBank.other, swapPending := false }).signal b .swapDone

/-- A pending swap of branch `b` taken, where one is pending (R49). -/
def State.takePendingSwap (s : State) (b : Branch) : State :=
  if (s.br b).swapPending then s.takeSwap b else s

/-- An entry one cycle start older (R57). -/
def Command.aged (c : Command) : Command := { c with age := c.age + 1 }

/-- Whether an entry's age equals its lifetime (R57). -/
def Command.spent (c : Command) : Bool := c.age == c.lifetime

/-- Expired entries give RESULTs of status EXPIRED in order, and COMMAND_EXPIRED where there are any (R57). -/
def State.expireAll (s : State) (b : Branch) (expired : List Command) : State :=
  if expired.isEmpty then s else (s.convertAll .expired expired).signal b .commandExpired

/-- The ageing of DQb at a cycle start: every entry's age rises, and those whose age equals their lifetime expire
(R55 step 3, R57). -/
def State.ageQueue (s : State) (b : Branch) : State :=
  let aged := (s.br b).queue.map Command.aged
  (s.onBr b fun B => { B with queue := aged.filter fun c => !c.spent }).expireAll b (aged.filter Command.spent)

/-- The entries of DQb whose age reaches their lifetime with their next visit expire; the others are not touched (R57,
log 10). -/
def State.expireDue (s : State) (b : Branch) : State :=
  let due (c : Command) : Bool := c.aged.spent
  (s.onBr b fun B => { B with queue := B.queue.filter fun c => !due c }).expireAll b ((s.br b).queue.filter due)

/-! ### Starting a slot -/

/-- The oldest entry for a node and the queue without it (R68). -/
def takeFirst (node : Nat) : List Command → Option (Command × List Command)
  | [] => none
  | c :: rest =>
    if c.node = node then some (c, rest)
    else (takeFirst node rest).map fun r => (r.1, c :: r.2)

/-- A skip at a lookup: the slot has no record and takes no line time; the next slot index is due (R66, R84, R89). -/
def State.skipSlot (s : State) (b : Branch) : State :=
  (s.count b fun c => { c with slotsSkipped := bump c.slotsSkipped }).onCycle b
    fun c => { c with index := c.index + 1 }

/-- The attempt of a poll slot or transaction begins: SENDING, with the frame on the line (R69). -/
def State.beginAttempt (s : State) (b : Branch) (rate : LineRate) (w : PollWork) : State :=
  s.onBr b fun B =>
    { B with slot := some { rate := rate, phase := .sending, work := .poll w }, line := .sending w.lineFrame }

/-- The launch of a command: the record's toggle flips and the CMD frame carries the new value (R34, R68, R109). -/
def State.launch (s : State) (b : Branch) (r : NodeRecord) (c : Command) (window retries : Nat) : State :=
  (s.onNode r.address fun q => { q with toggle := !r.toggle }).beginAttempt b (s.br b).rate
    { node := r.address, window := window, retriesLeft := retries
      frame := .cmd (!r.toggle) { tag := c.tag, node := c.node, payload := c.payload }
      failure := none, reply := none, quietFrom := .handOver }

/-- The frame choice of a poll slot that passed its lookup on record `r` (R68, R89). -/
def State.chooseFrame (s : State) (b : Branch) (r : NodeRecord) (window retries : Nat) : State :=
  let s := s.count b fun c => { c with slotsRun := bump c.slotsRun }
  match takeFirst r.address (s.br b).queue with
  | some (c, rest) => (s.onBr b fun B => { B with queue := rest }).launch b r c window retries
  | none =>
    s.beginAttempt b (s.br b).rate
      { node := r.address, window := window, retriesLeft := retries, frame := .poll
        failure := none, reply := none, quietFrom := .handOver }

/-- The lookup of a poll slot: a skip, or the frame choice (R22, R66, R67). -/
def State.lookup (s : State) (b : Branch) (node window retries : Nat) : State :=
  match s.node? node with
  | none => s.skipSlot b
  | some r =>
    if r.branch ≠ b then s.skipSlot b
    else
      match r.health with
      | .inactive => s.skipSlot b
      | .online | .suspect => s.chooseFrame b r window retries
      | .offline =>
        if 0 < r.countdown - 1 then
          (s.onNode node fun q => { q with countdown := r.countdown - 1 }).skipSlot b
        else (s.onNode node fun q => { q with countdown := r.divisor }).chooseFrame b r window retries

/-- The entry at the slot index of the active bank (R65). -/
def BranchState.entry (B : BranchState) : SlotEntry := B.active.entries.toList.getD B.cycle.index (.gap 1)

/-- The start of the slot at the slot index (R65, R82, R83, R89). -/
def State.startSlot (s : State) (b : Branch) : State :=
  let B := s.br b
  match B.entry with
  | .poll node window retries => s.lookup b node window retries
  | .sync =>
    (s.count b fun c => { c with slotsRun := bump c.slotsRun }).onBr b fun B =>
      { B with slot := some { rate := B.rate, phase := .sending, work := .sync }
               line := .sending (syncFrame b B.cycle.number) }
  | .gap n =>
    (s.count b fun c => { c with slotsRun := bump c.slotsRun }).onBr b fun B =>
      { B with slot := some { rate := B.rate, phase := .holding, work := .gap n } }

/-- Slots are started one after another, from the slot index on, until one takes line time or `n` have been skipped
(R65, R66, R84). -/
def State.runSlots (b : Branch) : Nat → State → State
  | 0, s => s
  | n + 1, s =>
    let t := s.startSlot b
    if (t.br b).slot.isSome then t else State.runSlots b n t

/-- The slots of the cycle from the slot index to the list length (R53, R65). -/
def State.runCycle (s : State) (b : Branch) : State :=
  s.runSlots b ((s.br b).active.length - (s.br b).cycle.index)

/-! ### Cycles -/

/-- A cycle start: swap, number, ageing, first slot (R55); the cycle may be complete at once. -/
def State.openCycle (s : State) (b : Branch) : State :=
  let s := s.takePendingSwap b
  let s := s.onCycle b fun c => { c with number := c.number + 1 }
  let s := s.count b fun c => { c with cycles := bump c.cycles }
  let s := s.ageQueue b
  (s.onCycle b fun c => { c with index := 0, phase := .running }).runCycle b

/-- The cycle state of an engine that waits for its next tick (R54). -/
def State.wait (s : State) (b : Branch) : State := s.onCycle b fun c => { c with phase := .waiting }

/-- The completion of a cycle: with the late mark clear the engine waits; with it set the mark clears and an overrun
cycle starts at once (R54). -/
def State.completeCycle (s : State) (b : Branch) : State :=
  if (s.br b).cycle.late then
    let s := s.onCycle b fun c => { c with late := false }
    let s := s.signal b .cycleOverrun
    let s := s.count b fun c => { c with overruns := bump c.overruns }
    let s := s.openCycle b
    if (s.br b).slot.isSome then s else s.wait b
  else s.wait b

/-- A cycle starts, and completes at once where no slot of it takes line time (R55, R54). -/
def State.cycleStart (s : State) (b : Branch) : State :=
  let s := s.openCycle b
  if (s.br b).slot.isSome then s else s.completeCycle b

/-- The next slot starts, or the cycle is complete (R84). -/
def State.continueCycle (s : State) (b : Branch) : State :=
  let s := s.runCycle b
  if (s.br b).slot.isSome then s else s.completeCycle b

/-- A suspended cycle: a pending swap, the number, the counter; the engine waits (R59). -/
def State.suspendedCycle (s : State) (b : Branch) : State :=
  let s := s.takePendingSwap b
  let s := s.onCycle b fun c => { c with number := c.number + 1 }
  let s := s.count b fun c => { c with suspended := bump c.suspended }
  s.wait b

/-- The cycle timer started, its count 0 (R51, R52). -/
def State.startTimer (s : State) (b : Branch) : State := s.onCycle b fun c => { c with timer := some 0 }

/-- A cycle tick given to the engine (R53). -/
def State.tickEngine (s : State) (b : Branch) : State :=
  match (s.br b).cycle.phase with
  | .stopped => s
  | .waiting => if (s.br b).sup.state.usable then s.cycleStart b else s.suspendedCycle b
  | .running => s.onCycle b fun c => { c with late := true }

/-- Scheduled cycling ends: STOPPED, no late mark, the timer stopped, a pending swap taken (R49, R60). -/
def State.endCycling (s : State) (b : Branch) : State :=
  (s.onCycle b fun c => { c with phase := .stopped, late := false, timer := none }).takePendingSwap b

/-! ### On-demand transactions -/

/-- Whether a transaction starts on branch `b` (R108). -/
def State.mayTransact (s : State) (b : Branch) : Bool :=
  let B := s.br b
  B.current == .onDemand && !B.changePending && !B.supplyWait && B.sup.state.usable && B.slot.isNone && !B.queue.isEmpty

/-- The start of a transaction with the head of DQb: ended at once with NO_ROUTE or NODE_INACTIVE, or a CMD sent with the
on-demand window and retries (R109, R111). -/
def State.startTransaction (s : State) (b : Branch) : State :=
  match (s.br b).queue with
  | [] => s
  | c :: rest =>
    let s := s.onBr b fun B => { B with queue := rest }
    match s.node? c.node with
    | none => s.convert c.tag c.node .noRoute []
    | some r =>
      if r.branch ≠ b then s.convert c.tag c.node .noRoute []
      else if r.health = .inactive then s.convert c.tag c.node .nodeInactive []
      else s.launch b r c (s.br b).odWindow (s.br b).odRetries

/-- Transactions start one after another while the conditions of R108 hold, at most `n` of them (R110). -/
def State.runTransactions (b : Branch) : Nat → State → State
  | 0, s => s
  | n + 1, s => if s.mayTransact b then State.runTransactions b n (s.startTransaction b) else s

/-- The engine of an ON_DEMAND branch starts what it may (R108, R110). -/
def State.kick (s : State) (b : Branch) : State := s.runTransactions b (s.br b).queue.length

/-! ### The supply reaching NORMAL -/

/-- The engine begins work in its current mode, the supply wait mark having cleared (R52, R105). -/
def State.beginWork (s : State) (b : Branch) : State :=
  match (s.br b).current with
  | .scheduled => (s.startTimer b).cycleStart b
  | .onDemand => s.kick b
  | .off => s

/-- Supervisor `b` reaches NORMAL from RESTORE_PENDING (R188). -/
def State.reachNormal (s : State) (b : Branch) : State :=
  let marked := (s.br b).sup.faultMark
  let s := s.onSup b fun v => { v with state := .normal, restore := none, faultMark := false }
  let s := if marked then s.signal b .supplyRestored else s
  if (s.br b).supplyWait then (s.onBr b fun B => { B with supplyWait := false }).beginWork b else s.kick b

/-- Supervisor `b` enters RESTORE_PENDING with its supply wait mark set, and its restore timer runs where the comparator
reports above; with supervision disabled it is NORMAL in the same step (R105, R114, R185, R189, R190). -/
def State.awaitSupply (s : State) (b : Branch) : State :=
  let s := s.onBr b fun B => { B with supplyWait := true }
  let s := s.onSup b fun v => { v with
    state := .restorePending, qualify := none, faultMark := false
    restore := if (s.br b).above then some 0 else none }
  if (s.br b).sup.enabled then s else s.reachNormal b

/-! ### Mode changes -/

/-- The rest of a change to OFF: DQb emptied with BRANCH_OFF, the wait mark clear, the supervisor DISABLED (R104,
R185). -/
def State.goOff (s : State) (b : Branch) : State :=
  let s := s.flushQueue b .branchOff
  let s := s.onBr b fun B => { B with supplyWait := false }
  s.onSup b fun v => { v with state := .disabled, restore := none, qualify := none, faultMark := false }

/-- A change from ON_DEMAND to SCHEDULED: with the wait mark set only the mode changes; otherwise the timer starts, and a
cycle or a suspended cycle starts at once (R105, R106, R60). -/
def State.beginCycling (s : State) (b : Branch) : State :=
  if (s.br b).supplyWait then s
  else if (s.br b).sup.state.usable then (s.startTimer b).cycleStart b
  else (s.startTimer b).suspendedCycle b

/-- A pending change of branch `b` is taken: the current mode becomes the requested mode, with the effects of the change
(R60, R103 to R106). -/
def State.takeChange (s : State) (b : Branch) : State :=
  let was := (s.br b).current
  let asked := (s.br b).requested
  let s := s.onBr b fun B => { B with current := asked }
  match was, asked with
  | .scheduled, .onDemand => (s.endCycling b).kick b
  | .scheduled, .off => (s.endCycling b).goOff b
  | .onDemand, .off => s.goOff b
  | .onDemand, .scheduled => s.beginCycling b
  | .off, .scheduled | .off, .onDemand => s.awaitSupply b
  | .off, .off | .scheduled, .scheduled | .onDemand, .onDemand => s

/-! ### The end of a slot or transaction -/

/-- The slot of a running cycle ends: the index rises, a pending change is taken, and otherwise the next slot starts or
the cycle completes (R84). -/
def State.endSlot (s : State) (b : Branch) : State :=
  let s := s.onBr b fun B => { B with slot := none, line := .quiet }
  let s := s.onCycle b fun c => { c with index := c.index + 1 }
  if (s.br b).changePending then s.takeChange b else s.continueCycle b

/-- A transaction ends: a pending change is taken, and otherwise the next transaction starts where it may (R110). -/
def State.endTransaction (s : State) (b : Branch) : State :=
  let s := s.onBr b fun B => { B with slot := none, line := .quiet }
  if (s.br b).changePending then s.takeChange b else s.kick b

/-- A slot ends, or a transaction where the branch is ON_DEMAND (R84, R91, R110). -/
def State.endWork (s : State) (b : Branch) : State :=
  if (s.br b).current = .onDemand then s.endTransaction b else s.endSlot b

/-! ### The report decision -/

/-- Whether a reply differs from the last value (R78). -/
def replyDiffers (last : Option (List Byte)) (compareLength : Nat) (reply : List Byte) : Bool :=
  match last with
  | none => true
  | some v =>
    v.length != reply.length || v.take (min compareLength reply.length) != reply.take (min compareLength reply.length)

/-- Whether a report is due (R77, R79). -/
def NodeRecord.reportDue (r : NodeRecord) (reply : List Byte) : Bool :=
  match r.reportMode with
  | .every => true
  | .onChange => replyDiffers r.lastValue r.compareLength reply
  | .periodic => replyDiffers r.lastValue r.compareLength reply || decide (r.reportPeriod ≤ r.pollsSince + 1)

/-- The report decision on the reply of record `r`, as it stands after the OK outcome, with the pool's answer (R77, R80,
R124, R127). -/
def State.reportDecision (s : State) (b : Branch) (r : NodeRecord) (reply : List Byte) : State :=
  if r.reportDue reply then
    if s.occupancy < reportCeiling then
      (s.addEntry .report (reportPayload r.address b (s.br b).cycle.number reply)).onNode r.address
        fun q => { q with lastValue := some reply, pollsSince := 0 }
    else
      let s := { s.signalDevice .reportDropped with droppedReports := bump s.droppedReports }
      s.onNode r.address fun q => { q with pollsSince := bump255 q.pollsSince }
  else s.onNode r.address fun q => { q with pollsSince := bump255 q.pollsSince }

/-! ### The write-back -/

/-- A record after an OK outcome (R23). -/
def NodeRecord.afterOk (r : NodeRecord) : NodeRecord :=
  { r with misses := 0, health := .online, countdown := 0, okReplies := bump r.okReplies }

/-- A record after a failed outcome (R24). -/
def NodeRecord.afterFailure (r : NodeRecord) : NodeRecord :=
  let r := { r with totalMisses := bump r.totalMisses }
  match r.health with
  | .online | .suspect =>
    if r.misses + 1 < r.threshold then { r with misses := r.misses + 1, health := .suspect }
    else { r with misses := r.misses + 1, health := .offline, countdown := r.divisor }
  | .offline | .inactive => r

/-- An OK outcome applied to the record found on the branch and active (R23). -/
def State.okOutcome (s : State) (b : Branch) (r : NodeRecord) : State :=
  let s := s.onNode r.address NodeRecord.afterOk
  if r.health = .offline then s.signalNode b .nodeBack r.address else s

/-- A failed outcome applied to the record found on the branch and active (R24). -/
def State.failedOutcome (s : State) (b : Branch) (r : NodeRecord) : State :=
  let s := s.onNode r.address NodeRecord.afterFailure
  if r.health ≠ .offline ∧ r.afterFailure.health = .offline then s.signalNode b .nodeLost r.address else s

/-- A write-back that finds no record, or one on another branch (R27). -/
def State.orphan (s : State) (b : Branch) : State := s.count b fun c => { c with orphans := bump c.orphans }

/-- Steps 1 and 2 of the write-back: the outcome applied by lookup, and the report decision (R23, R24, R26, R27, R75). -/
def State.applyOutcome (s : State) (b : Branch) (w : PollWork) : State :=
  match s.node? w.node with
  | none => s.orphan b
  | some r =>
    if r.branch ≠ b then s.orphan b
    else
      match w.reply with
      | some reply =>
        if r.health = .inactive then s.onNode r.address fun q => { q with okReplies := bump q.okReplies }
        else
          let s := s.okOutcome b r
          match w.frame with
          | .poll => s.reportDecision b r.afterOk reply.payload
          | .cmd _ _ => s
      | none =>
        if r.health = .inactive then s.onNode r.address fun q => { q with totalMisses := bump q.totalMisses }
        else s.failedOutcome b r

/-- The status and reply bytes of a command's RESULT by its outcome (R76). -/
def PollWork.result (w : PollWork) : ResultStatus × List Byte :=
  match w.reply with
  | some reply => (if reply.kind = kindNodeAck then .doneAck else .doneNak, reply.payload)
  | none => (if w.failure = some .noReply then .noReply else .lineError, [])

/-- Step 3 of the write-back: the RESULT of the command, if the frame was CMD (R75, R76). -/
def State.issueResult (s : State) (w : PollWork) : State :=
  match w.frame with
  | .poll => s
  | .cmd _ c => s.convert c.tag c.node w.result.1 w.result.2

/-- Step 4 of the write-back: the counter of an OK outcome (R75, R89). -/
def State.countOutcome (s : State) (b : Branch) (w : PollWork) : State :=
  match w.reply, w.frame with
  | none, _ => s
  | some _, .poll => s.count b fun c => { c with pollOk := bump c.pollOk }
  | some _, .cmd _ _ => s.count b fun c => { c with commandOk := bump c.commandOk }

/-- The write-back (R75). -/
def State.writeBack (s : State) (b : Branch) (w : PollWork) : State :=
  ((s.applyOutcome b w).issueResult w).countOutcome b w

/-! ### Attempts -/

/-- The attempts have ended: the write-back, and the end of the slot or transaction (R75, R84, R110). -/
def State.finishWork (s : State) (b : Branch) (w : PollWork) : State := (s.writeBack b w).endWork b

/-- A failed attempt ends: a retry where retries are left, and otherwise the write-back (R73, R74). -/
def State.endAttempt (s : State) (b : Branch) (rate : LineRate) (w : PollWork) : State :=
  match w.retriesLeft with
  | 0 => s.finishWork b w
  | n + 1 =>
    (s.count b fun c => { c with retries := bump c.retries }).beginAttempt b rate { w with retriesLeft := n }

/-- The counter of a failed attempt (R89). -/
def State.countFailure (s : State) (b : Branch) (cls : FailClass) : State :=
  s.count b fun c =>
    match cls with
    | .noReply => { c with noReply := bump c.noReply }
    | .badCheck | .wrongNode | .badForm => { c with lineErrors := bump c.lineErrors }

/-- An attempt classed as failed whose line is quiet: counted, and ended (R70, R72). -/
def State.failAttempt (s : State) (b : Branch) (rate : LineRate) (w : PollWork) (cls : FailClass) : State :=
  (s.countFailure b cls).endAttempt b rate { w with failure := some cls }

/-- An attempt classed as failed whose far end may still send: counted, and SETTLING with the line unit QUIET (R72). -/
def State.settleAttempt (s : State) (b : Branch) (rate : LineRate) (w : PollWork) (cls : FailClass)
    (from_ : QuietFrom) : State :=
  (s.countFailure b cls).onBr b fun B =>
    { B with line := .quiet
             slot := some { rate := rate, phase := .settling
                            work := .poll { w with failure := some cls, quietFrom := from_ } } }

/-- The class of a complete frame; none is OK (R70, R71). -/
def PollWork.classify (w : PollWork) (f : LineFrame) : Option FailClass :=
  if f.address.toNat ≠ w.node then some .wrongNode
  else if !f.checkAgrees then some .badCheck
  else
    match w.frame with
    | .poll => if f.kind = kindData then none else some .badForm
    | .cmd toggle _ =>
      if f.kind ≠ kindNodeAck ∧ f.kind ≠ kindNodeNak then some .badForm
      else if f.third ≠ yesNo toggle then some .badForm
      else none

/-- The class of a fragment, by its address (R70). -/
def PollWork.classifyFragment (w : PollWork) (address : Byte) : FailClass :=
  if address.toNat ≠ w.node then .wrongNode else .badForm

/-- The slot or transaction of branch `b` that listens for a reply, and whether a frame has begun (R15, R69). -/
def BranchState.listening (B : BranchState) : Option (LineRate × PollWork) :=
  match B.slot, B.line with
  | some { rate := rate, phase := .listening, work := .poll w }, .hunting => some (rate, w)
  | some { rate := rate, phase := .listening, work := .poll w }, .receiving _ => some (rate, w)
  | _, _ => none

/-- A complete frame is handed to the engine (R16, R70): an OK attempt keeps the reply and ends the attempts (R73), a
failed one ends. -/
def State.heardFrame (s : State) (b : Branch) (f : LineFrame) : State :=
  match (s.br b).listening with
  | none => s
  | some (rate, w) =>
    match w.classify f with
    | none => s.finishWork b { w with reply := some { kind := f.kind, tog := f.third, payload := f.payload } }
    | some cls => s.failAttempt b rate w cls

/-- What a QUIET line unit hears restarts the quiet wait of a slot that is SETTLING (R72), which then counts from
`start`; in every other phase it is discarded (R15). -/
def State.heardQuiet (s : State) (b : Branch) (start : QuietFrom) : State :=
  s.onBr b fun B =>
    match B.slot with
    | some { rate := rate, phase := .settling, work := .poll w } =>
      { B with slot := some { rate := rate, phase := .settling, work := .poll { w with quietFrom := start } } }
    | _ => B

/-- A fragment that leaves the line to settle is handed to the engine (R16, R70, R72). On a QUIET line unit a framing error
breaks no frame, and a slot that is SETTLING then waits from the return of the line to 1 (R15, R72, log 6). -/
def State.heardFragment (s : State) (b : Branch) (address : Byte) (cause : FragmentCause) : State :=
  match (s.br b).listening with
  | none =>
    match (s.br b).line, cause with
    | .quiet, .framingError => s.heardQuiet b .lineReturn
    | _, _ => s
  | some (rate, w) =>
    s.settleAttempt b rate w (w.classifyFragment address)
      (match cause with
       | .framingError => .lineReturn
       | .overLength | .interrupted => .handOver)

/-- A gap fragment is handed to the engine (R16, R70); the line was quiet, so the attempt ends (R72). -/
def State.heardGap (s : State) (b : Branch) (address : Byte) : State :=
  match (s.br b).listening with
  | none => s
  | some (rate, w) => s.failAttempt b rate w (w.classifyFragment address)

/-! ### Faults -/

/-- The slot or transaction in progress is abandoned by a fault: the line unit QUIET, an in-flight command answered
LINE_FAULT (R15, R85). -/
def State.abandon (s : State) (b : Branch) : State :=
  let s' := s.onBr b fun B => { B with slot := none, line := .quiet }
  match (s.br b).inFlight with
  | none => s'
  | some c => s'.convert c.tag c.node .lineFault []

/-- The cycle of a branch whose supply has failed: a running cycle ends at once (R58). -/
def State.faultCycle (s : State) (b : Branch) : State :=
  s.onCycle b fun c => if c.phase = .running then { c with phase := .waiting, late := false } else c

/-- Supervisor `b` enters FAULT: the mark and SUPPLY_FAULT, the work abandoned, DQb emptied with LINE_FAULT, the cycle
ended, and then a change of mode that waited (R187). -/
def State.enterFault (s : State) (b : Branch) : State :=
  let s := s.onSup b fun v => { v with state := .fault, qualify := none, faultMark := true }
  let s := s.signal b .supplyFault
  let s := s.abandon b
  let s := s.flushQueue b .lineFault
  let s := s.faultCycle b
  if (s.br b).changePending then s.takeChange b else s

/-! ### Comparator changes and supervision settings -/

/-- A rise taken by supervisor `b` (R185). -/
def State.takeRise (s : State) (b : Branch) : State :=
  match (s.br b).sup.state with
  | .restorePending => s.onSup b fun v => { v with restore := some 0 }
  | .lowPending =>
    (s.onSup b fun v => { v with state := .normal, qualify := none }).count b
      fun c => { c with glitches := bump c.glitches }
  | .fault => s.onSup b fun v => { v with state := .restorePending, restore := some 0 }
  | .normal | .disabled => s

/-- A fall taken by supervisor `b` (R185). -/
def State.takeFall (s : State) (b : Branch) : State :=
  match (s.br b).sup.state with
  | .restorePending => s.onSup b fun v => { v with restore := none }
  | .normal => s.onSup b fun v => { v with state := .lowPending, qualify := some 0 }
  | .lowPending | .fault | .disabled => s

/-- The supervisor takes a change of the comparator's report from `was` to the report as it now stands, where
supervision is enabled (R184, R185, R189). -/
def State.compare (s : State) (b : Branch) (was : Bool) : State :=
  let B := s.br b
  if B.sup.enabled then
    match was, B.above with
    | false, true => s.takeRise b
    | true, false => s.takeFall b
    | true, true | false, false => s
  else s

/-- The write that disables supervision acts on the state it finds (R189). -/
def State.disableSupervision (s : State) (b : Branch) : State :=
  match (s.br b).sup.state with
  | .restorePending | .fault => s.reachNormal b
  | .lowPending => s.onSup b fun v => { v with state := .normal, qualify := none }
  | .disabled | .normal => s

/-- The write that enables supervision reads the comparator (R189). -/
def State.enableSupervision (s : State) (b : Branch) : State :=
  if (s.br b).sup.state = .normal ∧ !(s.br b).above then
    s.onSup b fun v => { v with state := .lowPending, qualify := some 0 }
  else s

end Sys2Proof.Machine
end

