-- ==== Sys2Proof/Machine/Line.lean ====
section
/-! DEFINITION. The commands of a branch line and its cycle: ticks, expiry, the ends of frames, windows, settling and
slots, and the characters heard (R15, R16, R51, R57, R69 to R72, R82, R83). -/
namespace Sys2Proof.Machine

/-- CYCLE_TICK (R51, R53): the count returns to 0 and the engine takes the tick; a stopped timer gives none (log 3). -/
def execCycleTick (b : Branch) (s : State) : Host.Outcome State Fault Refusal :=
  .next <|
    match (s.br b).cycle.timer with
    | none => s
    | some _ => ((s.startTimer b).tickEngine b).choice

/-- COMMAND_EXPIRY (R57): the queued commands whose age reaches their lifetime are removed with EXPIRED (log 10). -/
def execCommandExpiry (b : Branch) (s : State) : Host.Outcome State Fault Refusal :=
  .next (s.expireDue b).choice

/-- ATTEMPT_FRAME_SENT (R15, R69): BDEb is released, the slot is LISTENING and the line unit HUNTING. -/
def execAttemptFrameSent (b : Branch) (s : State) : Host.Outcome State Fault Refusal :=
  .next <|
    match (s.br b).slot with
    | some { rate := rate, phase := .sending, work := .poll w } =>
      s.onBr b fun B =>
        { B with slot := some { rate := rate, phase := .listening, work := .poll w }, line := .hunting }
    | _ => s

/-- NOTHING_HEARD (R69, R70): the window ends with no address character begun, and the attempt is classed NO_REPLY. -/
def execNothingHeard (b : Branch) (s : State) : Host.Outcome State Fault Refusal :=
  .next <|
    match (s.br b).slot, (s.br b).line with
    | some { rate := rate, phase := .listening, work := .poll w }, .hunting => (s.failAttempt b rate w .noReply).choice
    | _, _ => s

/-- BRANCH_REPLY_COMPLETE (R16, R70). -/
def execBranchReplyComplete (b : Branch) (frame : LineFrame) (s : State) : Host.Outcome State Fault Refusal :=
  .next (s.heardFrame b frame).choice

/-- BRANCH_FRAGMENT (R16, R70, R72); on a QUIET line unit a framing error is one heard there (R15, log 6). -/
def execBranchFragment (b : Branch) (address : Byte) (cause : FragmentCause) (s : State) :
    Host.Outcome State Fault Refusal :=
  .next (s.heardFragment b address cause)

/-- BRANCH_GAP (R16, R70). -/
def execBranchGap (b : Branch) (address : Byte) (s : State) : Host.Outcome State Fault Refusal :=
  .next (s.heardGap b address).choice

/-- SETTLING_END (R72): the attempt ends. -/
def execSettlingEnd (b : Branch) (s : State) : Host.Outcome State Fault Refusal :=
  .next <|
    match (s.br b).slot with
    | some { rate := rate, phase := .settling, work := .poll w } => (s.endAttempt b rate w).choice
    | _ => s

/-- SYNC_SLOT_END (R82): the slot ends with the last stop bit of its frame. -/
def execSyncSlotEnd (b : Branch) (s : State) : Host.Outcome State Fault Refusal :=
  .next <|
    match (s.br b).slot with
    | some { work := .sync, .. } => (s.endSlot b).choice
    | _ => s

/-- GAP_SLOT_END (R83): the remaining length reaches 0 and the slot ends. -/
def execGapSlotEnd (b : Branch) (s : State) : Host.Outcome State Fault Refusal :=
  .next <|
    match (s.br b).slot with
    | some { work := .gap _, .. } => (s.endSlot b).choice
    | _ => s

/-- BRANCH_CHARACTER (R15, R16): a character with a good stop bit, taken by the state the line unit is in; one that ends
a frame does what R16 gives it (log 6). -/
def execBranchCharacter (b : Branch) (marker : Bool) (value : Byte) (s : State) : Host.Outcome State Fault Refusal :=
  .next <|
    match (s.br b).line with
    | .sending _ => s
    | .quiet => s.heardQuiet b .lastCharacter
    | .hunting => if marker then s.onBr b fun B => { B with line := .receiving [value] } else s
    | .receiving taken =>
      if marker then s.heardFragment b (taken.headD 0) .interrupted
      else
        match takeData branchLenLimit taken value with
        | .overLength => s.heardFragment b (taken.headD 0) .overLength
        | .complete f => (s.heardFrame b f).choice
        | .more taken => s.onBr b fun B => { B with line := .receiving taken }

end Sys2Proof.Machine
end

