-- ==== Sys2Proof/Machine/Supply.lean ====
section
/-! DEFINITION. The commands of the supply supervisors (R184 to R190). -/
namespace Sys2Proof.Machine

/-- SUPPLY_RISE (R185): the supply stands above this many thresholds, or above as many as before where that is more; the
supervisor takes a rise where the comparator's report changes (log 7). -/
def execSupplyRise (b : Branch) (above : Fin 9) (s : State) : Host.Outcome State Fault Refusal :=
  let t := s.onBr b fun B => { B with supply := if B.supply < above then above else B.supply }
  .next (t.compare b (s.br b).above)

/-- SUPPLY_FALL (R185): the supply stands above this many thresholds, or above as many as before where that is fewer; the
supervisor takes a fall where the comparator's report changes (log 7). -/
def execSupplyFall (b : Branch) (above : Fin 9) (s : State) : Host.Outcome State Fault Refusal :=
  let t := s.onBr b fun B => { B with supply := if above < B.supply then above else B.supply }
  .next (t.compare b (s.br b).above)

/-- QUALIFY_TIMER_EXPIRY (R186, R187): in LOW_PENDING with the timer running, FAULT. -/
def execQualifyTimerExpiry (b : Branch) (s : State) : Host.Outcome State Fault Refusal :=
  .next <|
    match (s.br b).sup.state, (s.br b).sup.qualify with
    | .lowPending, some _ => (s.enterFault b).choice
    | _, _ => s

/-- RESTORE_TIMER_EXPIRY (R186, R188): in RESTORE_PENDING with the timer running, NORMAL. -/
def execRestoreTimerExpiry (b : Branch) (s : State) : Host.Outcome State Fault Refusal :=
  .next <|
    match (s.br b).sup.state, (s.br b).sup.restore with
    | .restorePending, some _ => (s.reachNormal b).choice
    | _, _ => s

end Sys2Proof.Machine
end

