-- ==== Sys2Proof/Machine/Relay.lean ====
section
/-! DEFINITION. Downlink Admission (R92 to R95). -/
namespace Sys2Proof.Machine

/-- What Downlink Admission decides of a relay (R92). -/
inductive RelayDecision where
  | dropped
  | notice (status : ResultStatus)
  | accepted (b : Branch) (lifetime : Nat)
  deriving DecidableEq, Repr

/-- The decision of a relay: the first check that applies (R92). -/
def State.decideRelay (s : State) (node : Nat) (payload : List Byte) : RelayDecision :=
  if poolSize ≤ s.occupancy then .dropped
  else if 24 < payload.length then .notice .tooLong
  else
    match s.node? node with
    | none => .notice .noRoute
    | some r =>
      let B := s.br r.branch
      if B.current = .off ∨ B.requested = .off then .notice .branchOff
      else if !B.sup.state.usable then .notice .lineFault
      else if queueDepth ≤ B.queue.length then .notice .queueFull
      else .accepted r.branch r.lifetime

/-- An accepted relay: a credit reserved, an entry at the tail of DQb, the counter; an idle ON_DEMAND branch starts a
transaction at once (R95, R108). -/
def State.accept (s : State) (b : Branch) (c : Command) : State :=
  let s := s.reserve.onBr b fun B => { B with queue := B.queue ++ [c] }
  (s.count b fun k => { k with commandsAccepted := bump k.commandsAccepted }).kick b

/-- A relay taken (R92 to R95). -/
def State.takeRelay (s : State) (node : Nat) (tag : Byte) (payload : List Byte) : State :=
  match s.decideRelay node payload with
  | .dropped => { s.signalDevice .relayDropped with relaysDropped := bump s.relaysDropped }
  | .notice status => s.notice tag node status
  | .accepted b lifetime =>
    s.accept b { tag := tag, node := node, payload := payload, age := 0, lifetime := lifetime }

/-- RELAY (R92): the good frame's arrival, then the decision. -/
def execRelay (address tag : Byte) (payload : List Byte) (s : State) : Host.Outcome State Fault Refusal :=
  .next (s.goodFrame fun s => s.takeRelay address.toNat tag payload)

end Sys2Proof.Machine
end

