-- ==== Sys2Proof/Machine/Operands.lean ====
section
/-! DEFINITION. The operands of a management request: its parts, tables, field items and their judgement (R159, R160,
R165, R192, Formats). -/
namespace Sys2Proof.Machine

/-- The eight tables (R160). -/
inductive Table where
  | device | branch | node | sched | queue | flags | counters | pool
  deriving DecidableEq, Repr

/-- The table of a code, none for an unlisted one (Formats, R193). -/
def Table.ofNat? : Nat → Option Table
  | 1 => some .device
  | 2 => some .branch
  | 3 => some .node
  | 4 => some .sched
  | 5 => some .queue
  | 6 => some .flags
  | 7 => some .counters
  | 8 => some .pool
  | _ => none

/-- Whether a table can be written (R165). -/
def Table.writable : Table → Bool
  | .device | .branch | .node | .sched => true
  | .queue | .flags | .counters | .pool => false

/-- A management request by its form (Formats). -/
inductive Request where
  | read (table key item selector : Byte)
  | write (table key item : Byte) (fields : List Byte)
  | deleteNode (address : Byte)
  | resetHealth (address : Byte)
  | purge (address : Byte)
  | swap (branch : Byte)
  | setMode (branch mode : Byte)
  | clearFlags (group set : Byte)
  | clearCounters (group : Byte)
  | restart
  /-- The kind is not listed, or the length is not that of the kind. -/
  | malformed
  deriving DecidableEq, Repr

/-- The request a payload carries (R157, Formats). -/
def Request.ofPayload : List Byte → Request
  | [] => .malformed
  | kind :: rest =>
    match kind.toNat, rest with
    | 1, [table, key, item, selector] => .read table key item selector
    | 2, table :: key :: item :: fields => .write table key item fields
    | 3, [address] => .deleteNode address
    | 4, [address] => .resetHealth address
    | 5, [address] => .purge address
    | 6, [branch] => .swap branch
    | 7, [branch, mode] => .setMode branch mode
    | 8, [group, set] => .clearFlags group set
    | 9, [group] => .clearCounters group
    | 10, [] => .restart
    | _, _ => .malformed

/-! ### Field items -/

/-- A field item: its code and the bytes of its value (R165). -/
structure FieldItem where
  code  : Nat
  value : List Byte
  deriving DecidableEq, Repr

/-- The width of a code's value: a number of bytes, or a length byte and as many bytes as it says (code 15h). -/
inductive FieldWidth where
  | bytes (n : Nat)
  | counted
  deriving DecidableEq, Repr

/-- The width of each listed code, none for a code listed for no table (Formats, Field items). -/
def fieldWidth (code : Nat) : Option FieldWidth :=
  if code = 0x15 then some .counted
  else if code = 0x16 ∨ code = 0x17 ∨ code = 0x24 ∨ code = 0x29 ∨ code = 0x3E ∨ code = 0x48 ∨ code = 0x49 then
    some (.bytes 2)
  else if (0x01 ≤ code ∧ code ≤ 0x08) ∨ (0x10 ≤ code ∧ code ≤ 0x14) ∨ (0x20 ≤ code ∧ code ≤ 0x23) ∨ code = 0x28 ∨
      (0x30 ≤ code ∧ code ≤ 0x36) ∨ (0x38 ≤ code ∧ code ≤ 0x3D) ∨ (0x40 ≤ code ∧ code ≤ 0x47) ∨
      (0x4A ≤ code ∧ code ≤ 0x4D) then
    some (.bytes 1)
  else none

/-- The field items of a WRITE: those before a code listed for no table, and whether the walk met one (R192). -/
structure Walk where
  items    : List FieldItem
  unlisted : Bool
  deriving DecidableEq, Repr

/-- The walk of the field items, none where the payload ends inside an item; `fuel` bounds the number of items (R192). -/
def walkItems : Nat → List Byte → Option Walk
  | _, [] => some { items := [], unlisted := false }
  | 0, _ :: _ => none
  | fuel + 1, code :: rest =>
    let item (k : Nat) : Option Walk :=
      if rest.length < k then none
      else (walkItems fuel (rest.drop k)).map fun w =>
        { w with items := { code := code.toNat, value := rest.take k } :: w.items }
    match fieldWidth code.toNat with
    | none => some { items := [], unlisted := true }
    | some (.bytes k) => item k
    | some .counted =>
      match rest with
      | [] => none
      | len :: _ => item (len.toNat + 1)

/-- The walk of a WRITE's field items (R192). -/
def walk (fields : List Byte) : Option Walk := walkItems fields.length fields

/-- Whether a code is a read-only field of the table (Formats, R192). -/
def Table.readOnlyCode (t : Table) (code : Nat) : Bool :=
  match t with
  | .node => decide (0x10 ≤ code ∧ code ≤ 0x17)
  | .branch => decide (0x38 ≤ code ∧ code ≤ 0x3E)
  | .device => decide (0x48 ≤ code ∧ code ≤ 0x4D)
  | .sched | .queue | .flags | .counters | .pool => false

/-- Whether the table and every field carried may be written (R159 check 3, R165, R192). -/
def Table.refusesWrite (t : Table) (w : Walk) : Bool := !t.writable || w.items.any fun i => t.readOnlyCode i.code

/-! ### Values -/

/-- A field named once: none where it is named a second time or its value is out of range (R165). -/
def once {α : Type} (held new : Option α) : Option (Option α) :=
  match held, new with
  | none, some v => some (some v)
  | _, _ => none

/-- A number in a range. -/
def inRange (low high n : Nat) : Option Nat := if low ≤ n ∧ n ≤ high then some n else none

/-- A yes/no value, none for a value other than 0 or 1 (R192). -/
def boolValue : Nat → Option Bool
  | 0 => some false
  | 1 => some true
  | _ => none

/-- A set of flags, none where it names a flag the group does not have (R166, R170). -/
def flagSetValue (g : Group) (set : Byte) : Option Byte := if set &&& ~~~g.flagSet = 0 then some set else none

/-- The items of a walk gathered by `add`, none where a code is unlisted or `add` refuses an item (R192). -/
def Walk.gather {α : Type} (w : Walk) (start : α) (add : α → FieldItem → Option α) : Option α :=
  if w.unlisted then none
  else w.items.foldl (fun acc i => acc.bind fun a => add a i) (some start)

/-- The fields a WRITE NODE carries (R18). -/
structure NodeWrite where
  branch        : Option Branch
  active        : Option Bool
  threshold     : Option Nat
  divisor       : Option Nat
  reportMode    : Option ReportMode
  reportPeriod  : Option Nat
  compareLength : Option Nat
  lifetime      : Option Nat
  deriving DecidableEq, Repr

/-- A WRITE NODE that carries nothing. -/
def NodeWrite.empty : NodeWrite := ⟨none, none, none, none, none, none, none, none⟩

/-- One field item of a WRITE NODE (R18, Formats). -/
def NodeWrite.add (w : NodeWrite) (i : FieldItem) : Option NodeWrite :=
  let v := beNat i.value
  match i.code with
  | 0x01 => (once w.branch (Branch.ofNat? v)).map fun x => { w with branch := x }
  | 0x02 => (once w.active (boolValue v)).map fun x => { w with active := x }
  | 0x03 => (once w.threshold (inRange 1 15 v)).map fun x => { w with threshold := x }
  | 0x04 => (once w.divisor (inRange 1 255 v)).map fun x => { w with divisor := x }
  | 0x05 => (once w.reportMode (ReportMode.ofNat? v)).map fun x => { w with reportMode := x }
  | 0x06 => (once w.reportPeriod (inRange 1 255 v)).map fun x => { w with reportPeriod := x }
  | 0x07 => (once w.compareLength (inRange 0 24 v)).map fun x => { w with compareLength := x }
  | 0x08 => (once w.lifetime (inRange 1 255 v)).map fun x => { w with lifetime := x }
  | _ => none

/-- The fields a WRITE BRANCH carries (R167). -/
structure BranchWrite where
  rate        : Option LineRate
  enabled     : Option Bool
  level       : Option Nat
  qualifyTime : Option Nat
  restoreTime : Option Nat
  odWindow    : Option Nat
  odRetries   : Option Nat
  deriving DecidableEq, Repr

/-- A WRITE BRANCH that carries nothing. -/
def BranchWrite.empty : BranchWrite := ⟨none, none, none, none, none, none, none⟩

/-- One field item of a WRITE BRANCH (R167, Formats). -/
def BranchWrite.add (w : BranchWrite) (i : FieldItem) : Option BranchWrite :=
  let v := beNat i.value
  match i.code with
  | 0x30 => (once w.rate (LineRate.ofNat? v)).map fun x => { w with rate := x }
  | 0x31 => (once w.enabled (boolValue v)).map fun x => { w with enabled := x }
  | 0x32 => (once w.level (inRange 0 7 v)).map fun x => { w with level := x }
  | 0x33 => (once w.qualifyTime (inRange 1 255 v)).map fun x => { w with qualifyTime := x }
  | 0x34 => (once w.restoreTime (inRange 1 255 v)).map fun x => { w with restoreTime := x }
  | 0x35 => (once w.odWindow (inRange 2 255 v)).map fun x => { w with odWindow := x }
  | 0x36 => (once w.odRetries (inRange 0 3 v)).map fun x => { w with odRetries := x }
  | _ => none

/-- The fields a WRITE DEVICE carries (R166). -/
structure DeviceWrite where
  window    : Option Nat
  timeout   : Option Nat
  failLimit : Option Nat
  enables   : Per (Option Byte)
  device    : Option Byte
  deriving DecidableEq, Repr

/-- A WRITE DEVICE that carries nothing. -/
def DeviceWrite.empty : DeviceWrite := ⟨none, none, none, ⟨none, none, none, none⟩, none⟩

/-- The enables of a branch group named by a WRITE DEVICE. -/
def DeviceWrite.addEnables (w : DeviceWrite) (b : Branch) (v : Nat) : Option DeviceWrite :=
  (once (w.enables.get b) (flagSetValue (.branch b) (byte v))).map fun x => { w with enables := w.enables.set b x }

/-- One field item of a WRITE DEVICE (R166, Formats). -/
def DeviceWrite.add (w : DeviceWrite) (i : FieldItem) : Option DeviceWrite :=
  let v := beNat i.value
  match i.code with
  | 0x40 => (once w.window (inRange 1 8 v)).map fun x => { w with window := x }
  | 0x41 => (once w.timeout (inRange 2 255 v)).map fun x => { w with timeout := x }
  | 0x42 => (once w.failLimit (inRange 2 15 v)).map fun x => { w with failLimit := x }
  | 0x43 => w.addEnables .b0 v
  | 0x44 => w.addEnables .b1 v
  | 0x45 => w.addEnables .b2 v
  | 0x46 => w.addEnables .b3 v
  | 0x47 => (once w.device (flagSetValue .device (byte v))).map fun x => { w with device := x }
  | _ => none

/-- The fields an entry write of WRITE SCHED carries, not yet judged by kind (R42). -/
structure EntryWrite where
  kind    : Option Nat
  node    : Option Nat
  window  : Option Nat
  retries : Option Nat
  gap     : Option Nat
  deriving DecidableEq, Repr

/-- An entry write that carries nothing. -/
def EntryWrite.empty : EntryWrite := ⟨none, none, none, none, none⟩

/-- One field item of an entry write; the header's codes are not known for the item (R192). -/
def EntryWrite.add (w : EntryWrite) (i : FieldItem) : Option EntryWrite :=
  let v := beNat i.value
  match i.code with
  | 0x20 => (once w.kind (some v)).map fun x => { w with kind := x }
  | 0x21 => (once w.node (some v)).map fun x => { w with node := x }
  | 0x22 => (once w.window (some v)).map fun x => { w with window := x }
  | 0x23 => (once w.retries (some v)).map fun x => { w with retries := x }
  | 0x24 => (once w.gap (some v)).map fun x => { w with gap := x }
  | _ => none

/-- The entry of an entry write: the kind, every field of that kind in its range, and nothing else (R42, R165). -/
def EntryWrite.entry (w : EntryWrite) : Option SlotEntry :=
  match w.kind, w.node, w.window, w.retries, w.gap with
  | some 1, some node, some window, some retries, none =>
    if 1 ≤ node ∧ node ≤ 239 ∧ 2 ≤ window ∧ window ≤ 255 ∧ retries ≤ 3 then some (.poll node window retries) else none
  | some 2, none, none, none, none => some .sync
  | some 3, none, none, none, some n => if 1 ≤ n ∧ n ≤ 4095 then some (.gap n) else none
  | _, _, _, _, _ => none

/-- The fields a header write of WRITE SCHED carries (R45). -/
structure HeaderWrite where
  length : Option Nat
  period : Option Nat
  deriving DecidableEq, Repr

/-- A header write that carries nothing. -/
def HeaderWrite.empty : HeaderWrite := ⟨none, none⟩

/-- One field item of a header write; the entry's codes are not known for the item (R45, R192). -/
def HeaderWrite.add (w : HeaderWrite) (i : FieldItem) : Option HeaderWrite :=
  let v := beNat i.value
  match i.code with
  | 0x28 => (once w.length (inRange 0 32 v)).map fun x => { w with length := x }
  | 0x29 => (once w.period (inRange 2 60000 v)).map fun x => { w with period := x }
  | _ => none

end Sys2Proof.Machine
end

