-- ==== Sys2Proof/Machine/Management.lean ====
section
/-! DEFINITION. The Management Unit's answer to a request (R157, R158). -/
namespace Sys2Proof.Machine

/-- A response before it is offered: its status and data (R158). -/
structure Reply where
  status : Status
  data   : List Byte
  deriving DecidableEq, Repr

/-- A request refused: no data (R158). -/
def Reply.refused (status : Status) : Reply := { status := status, data := [] }

/-- A request carried out that returns no data (R158). -/
def Reply.done : Reply := { status := .ok, data := [] }

/-- A request carried out that returns data (R158). -/
def Reply.with (data : List Byte) : Reply := { status := .ok, data := data }

/-- The response offered to the pool: admitted with the occupancy below 48 and fewer than 4 MGMT_RESP QUEUED, and
otherwise discarded with MGMT_DROPPED and counted (R121, R158, R171). -/
def State.respond (s : State) (tag : Byte) (r : Reply) : State :=
  if s.occupancy < poolSize ∧ s.queuedCount .mgmtResp < responseLimit then
    s.addEntry .mgmtResp (responsePayload tag r.status r.data)
  else
    { s.signalDevice .mgmtDropped with droppedResponses := bump s.droppedResponses }

/-- A request taken whole: MU holds the tag, carries the request out, offers the response, and holds no tag (R157, R158). -/
def State.manage (tag : Byte) (request : State → State × Reply) (s : State) : State :=
  let r := request { s with muTag := some tag }
  { r.1.respond tag r.2 with muTag := none }

/-- A management request frame: a good frame, taken by the Management Unit (R13, R157). -/
def State.requestFrame (s : State) (tag : Byte) (request : State → State × Reply) : State :=
  s.goodFrame (State.manage tag request)

/-- A request that changes nothing: its reply alone (R160). -/
def reading (f : State → Reply) (s : State) : State × Reply := (s, f s)

end Sys2Proof.Machine
end

