-- ==== Sys2Proof/Machine/Reads.lean ====
section
/-! DEFINITION. READ of the eight tables: what each returns, in the byte order of Formats (R20, R46, R99, R133, R160 to
R164). -/
namespace Sys2Proof.Machine

/-- A read whose table uses no key, item or selector (R160). -/
def plainRead (key item selector : Byte) (data : List Byte) : Reply :=
  if key ≠ 0 ∨ item ≠ 0 then .refused .badIndex
  else if selector ≠ 0 then .refused .badValue
  else .with data

/-! ### DEVICE -/

def vendorCode : Half := 0x5A31
def partCode : Half := 0x4804
def siliconRevision : Byte := 0x03

/-- The data of READ DEVICE (R162, R191). -/
def State.deviceData (s : State) : List Byte :=
  two vendorCode ++ two partCode ++
    [siliconRevision, s.station, byte s.trunkRate.val, s.eu.cause.code, byte s.du.window, byte s.du.timeout,
     byte s.du.failLimit, s.eu.groups.b0.enables, s.eu.groups.b1.enables, s.eu.groups.b2.enables,
     s.eu.groups.b3.enables, s.eu.device.enables]

/-- READ DEVICE (R162). -/
def readDevice (key item selector : Byte) (s : State) : Reply := plainRead key item selector s.deviceData

/-! ### BRANCH -/

/-- The data of READ BRANCH (R163). -/
def BranchState.data (B : BranchState) : List Byte :=
  [B.rate.code, yesNo B.sup.enabled, byte B.sup.level, byte B.sup.qualifyTime, byte B.sup.restoreTime,
   byte B.odWindow, byte B.odRetries, B.current.code, B.requested.code, yesNo B.supplyWait, B.sup.state.code,
   B.activeBank.code, yesNo B.swapPending] ++ two B.cycle.number

/-- READ BRANCH (R163). -/
def readBranch (key item selector : Byte) (s : State) : Reply :=
  match Branch.ofNat? key.toNat with
  | none => .refused .badIndex
  | some b => plainRead 0 item selector (s.br b).data

/-! ### NODE -/

/-- The presence and length of a last value (R161, R191). -/
def NodeRecord.lastShape (r : NodeRecord) : List Byte :=
  match r.lastValue with
  | none => [0, 0]
  | some v => [1, byte v.length]

/-- The record part (R161). -/
def NodeRecord.recordPart (r : NodeRecord) : List Byte :=
  [byte r.address, r.branch.byte, yesNo r.active, byte r.threshold, byte r.divisor, r.reportMode.code,
   byte r.reportPeriod, byte r.compareLength, byte r.lifetime, r.health.code, byte r.misses, byte r.countdown,
   byte r.pollsSince, yesNo r.toggle] ++ r.lastShape ++ two r.okReplies ++ two r.totalMisses

/-- The value part (R161). -/
def NodeRecord.valuePart (r : NodeRecord) : List Byte := byte r.address :: r.lastShape ++ r.lastValue.getD []

/-- READ NODE: bit 0 of the selector chooses the part, bit 1 asks for "next" (R20, R161, Formats). -/
def readNode (key item selector : Byte) (s : State) : Reply :=
  let next := selector.getLsbD 1
  if key.toNat < (if next then 0 else 1) ∨ 239 < key.toNat ∨ item ≠ 0 then .refused .badIndex
  else if 3 < selector.toNat then .refused .badValue
  else
    match if next then nextNode key.toNat s.nodes else s.node? key.toNat with
    | none => .refused .noEntry
    | some r => .with (if selector.getLsbD 0 then r.valuePart else r.recordPart)

/-! ### SCHED -/

/-- The image of a slot entry; a field its kind does not hold is 0 (R191). -/
def SlotEntry.data : SlotEntry → List Byte
  | .poll node window retries => [0x01, byte node, byte window, byte retries, 0, 0]
  | .sync => [0x02, 0, 0, 0, 0, 0]
  | .gap n => [0x03, 0, 0, 0] ++ twoNat n

/-- The header of a bank (R46). -/
def Bank.header (k : Bank) : List Byte := byte k.length :: twoNat k.period

/-- READ SCHED: selectors 00h and 01h read an entry, 02h and 03h the header, of the active and the standby bank (R46,
Formats); the item is judged before the selector (R159, log 11). -/
def readSched (key item selector : Byte) (s : State) : Reply :=
  match Branch.ofNat? key.toNat with
  | none => .refused .badIndex
  | some b =>
    let B := s.br b
    let bank := B.bank (if selector.getLsbD 0 then B.activeBank.other else B.activeBank)
    let header := selector = 2 ∨ selector = 3
    if 31 < item.toNat ∨ (header ∧ item ≠ 0) then .refused .badIndex
    else if 3 < selector.toNat then .refused .badValue
    else if header then .with bank.header
    else .with (bank.entries.toList.getD item.toNat (.gap 1)).data

/-! ### QUEUE -/

/-- The image of a queued command (R99). -/
def Command.data (c : Command) : List Byte := [c.tag, byte c.node, byte c.age, byte c.lifetime]

/-- READ QUEUE (R99). -/
def readQueue (key item selector : Byte) (s : State) : Reply :=
  match Branch.ofNat? key.toNat with
  | none => .refused .badIndex
  | some b =>
    if 7 < item.toNat then .refused .badIndex
    else if selector ≠ 0 then .refused .badValue
    else
      match (s.br b).queue[item.toNat]? with
      | none => .refused .noEntry
      | some c => .with c.data

/-! ### FLAGS -/

/-- READ FLAGS (R164). -/
def readFlags (key item selector : Byte) (s : State) : Reply :=
  match Group.ofNat? key.toNat with
  | none => .refused .badIndex
  | some g =>
    plainRead 0 item selector
      [(s.eu.group g).flags, (s.eu.group g).enables, yesNo (s.eu.group g).pending, s.eu.lastNodeByte g]

/-! ### COUNTERS -/

/-- The counters of a branch group in order (R164, Formats). -/
def BranchCounters.data (c : BranchCounters) : List Byte :=
  two c.slotsRun ++ two c.slotsSkipped ++ two c.pollOk ++ two c.commandOk ++ two c.noReply ++ two c.lineErrors ++
    two c.retries ++ two c.orphans ++ two c.cycles ++ two c.overruns ++ two c.suspended ++ two c.commandsAccepted ++
    two c.glitches

/-- The counters of the device group in order (R164, Formats). -/
def State.deviceCounters (s : State) : List Byte :=
  two s.rx.good ++ two s.rx.checkFails ++ two s.rx.fragments ++ two s.rx.badAddresses ++ two s.du.framesSent ++
    two s.du.retransmissions ++ two s.du.staleAcks ++ two s.droppedReports ++ two s.relaysDropped ++
    two s.droppedResponses

/-- READ COUNTERS (R164). -/
def readCounters (key item selector : Byte) (s : State) : Reply :=
  match Group.ofNat? key.toNat with
  | none => .refused .badIndex
  | some (.branch b) => plainRead 0 item selector (s.br b).counters.data
  | some .device => plainRead 0 item selector s.deviceCounters

/-! ### POOL -/

/-- The data of READ POOL (R133, Formats). -/
def State.poolData (s : State) : List Byte :=
  [byte (s.queuedCount .mgmtResp), byte (s.queuedCount .alert), byte (s.queuedCount .result),
   byte (s.queuedCount .report), byte s.sentCount, byte s.credits, s.du.nextSeq.setWidth 8, s.du.trunk.code,
   byte s.du.timeoutCount]

/-- READ POOL (R133). -/
def readPool (key item selector : Byte) (s : State) : Reply := plainRead key item selector s.poolData

/-! ### The meanings -/

/-- READ of a table by its code (R159, R160). -/
def readTable (t : Table) (key item selector : Byte) (s : State) : Reply :=
  match t with
  | .device => readDevice key item selector s
  | .branch => readBranch key item selector s
  | .node => readNode key item selector s
  | .sched => readSched key item selector s
  | .queue => readQueue key item selector s
  | .flags => readFlags key item selector s
  | .counters => readCounters key item selector s
  | .pool => readPool key item selector s

/-- READ_DEVICE (R162). -/
def execReadDevice (tag key item selector : Byte) (s : State) : Host.Outcome State Fault Refusal :=
  .next (s.requestFrame tag (reading (readDevice key item selector)))

/-- READ_BRANCH (R163). -/
def execReadBranch (tag key item selector : Byte) (s : State) : Host.Outcome State Fault Refusal :=
  .next (s.requestFrame tag (reading (readBranch key item selector)))

/-- READ_NODE (R20, R161). -/
def execReadNode (tag key item selector : Byte) (s : State) : Host.Outcome State Fault Refusal :=
  .next (s.requestFrame tag (reading (readNode key item selector)))

/-- READ_SCHED (R46). -/
def execReadSched (tag key item selector : Byte) (s : State) : Host.Outcome State Fault Refusal :=
  .next (s.requestFrame tag (reading (readSched key item selector)))

/-- READ_QUEUE (R99). -/
def execReadQueue (tag key item selector : Byte) (s : State) : Host.Outcome State Fault Refusal :=
  .next (s.requestFrame tag (reading (readQueue key item selector)))

/-- READ_FLAGS (R164). -/
def execReadFlags (tag key item selector : Byte) (s : State) : Host.Outcome State Fault Refusal :=
  .next (s.requestFrame tag (reading (readFlags key item selector)))

/-- READ_COUNTERS (R164). -/
def execReadCounters (tag key item selector : Byte) (s : State) : Host.Outcome State Fault Refusal :=
  .next (s.requestFrame tag (reading (readCounters key item selector)))

/-- READ_POOL (R133). -/
def execReadPool (tag key item selector : Byte) (s : State) : Host.Outcome State Fault Refusal :=
  .next (s.requestFrame tag (reading (readPool key item selector)))

end Sys2Proof.Machine
end

