-- ==== Sys2Proof/Machine/Writes.lean ====
section
/-! DEFINITION. WRITE of the tables: the judgement in the order of R159 and R45, and what a valid write does (R28 to R32,
R42, R45, R165 to R167, R189). -/
namespace Sys2Proof.Machine

/-! ### DEVICE -/

/-- The fields of a WRITE DEVICE take effect together (R141, R146, R148, R166, R177). -/
def State.applyDevice (s : State) (w : DeviceWrite) : State :=
  let enable (g : FlagGroup) (v : Option Byte) : FlagGroup := { g with enables := v.getD g.enables }
  { s with
    du := { s.du with
      window := w.window.getD s.du.window
      timeout := w.timeout.getD s.du.timeout
      failLimit := w.failLimit.getD s.du.failLimit }
    eu := { s.eu with
      groups := ⟨enable s.eu.groups.b0 w.enables.b0, enable s.eu.groups.b1 w.enables.b1,
                 enable s.eu.groups.b2 w.enables.b2, enable s.eu.groups.b3 w.enables.b3⟩
      device := enable s.eu.device w.device } }

/-- WRITE DEVICE once its form and fields may be written (R159, R166). -/
def writeDevice (key item : Byte) (w : Walk) (s : State) : State × Reply :=
  if key ≠ 0 ∨ item ≠ 0 then (s, .refused .badIndex)
  else
    match w.gather DeviceWrite.empty DeviceWrite.add with
    | none => (s, .refused .badValue)
    | some d => (s.applyDevice d, .done)

/-! ### BRANCH -/

/-- The settings of a branch after a WRITE BRANCH (R167). -/
def BranchState.settings (B : BranchState) (w : BranchWrite) : BranchState :=
  { B with
    rate := w.rate.getD B.rate
    odWindow := w.odWindow.getD B.odWindow
    odRetries := w.odRetries.getD B.odRetries
    sup := { B.sup with
      enabled := w.enabled.getD B.sup.enabled
      level := w.level.getD B.sup.level
      qualifyTime := w.qualifyTime.getD B.sup.qualifyTime
      restoreTime := w.restoreTime.getD B.sup.restoreTime } }

/-- The settings written in one step, and then their effect on the supervisor: supervision disabled, enabled, or the
comparator's report changed by the level (R189, log 13). -/
def State.applyBranch (s : State) (b : Branch) (w : BranchWrite) : State :=
  let old := s.br b
  let s := s.onBr b fun B => B.settings w
  match old.sup.enabled, (s.br b).sup.enabled with
  | true, false => s.disableSupervision b
  | false, true => s.enableSupervision b
  | true, true => s.compare b old.above
  | false, false => s

/-- WRITE BRANCH once its form and fields may be written (R159, R167). -/
def writeBranch (key item : Byte) (w : Walk) (s : State) : State × Reply :=
  match Branch.ofNat? key.toNat with
  | none => (s, .refused .badIndex)
  | some b =>
    if item ≠ 0 then (s, .refused .badIndex)
    else
      match w.gather BranchWrite.empty BranchWrite.add with
      | none => (s, .refused .badValue)
      | some d => (s.applyBranch b d, .done)

/-! ### NODE -/

/-- A health state fresh from the active field (R28, R37, R40). -/
def freshHealth (active : Bool) : Health := if active then .online else .inactive

/-- A record created by a WRITE NODE (R18, R28). -/
def NodeWrite.create (w : NodeWrite) (address : Nat) : NodeRecord :=
  { address := address
    branch := w.branch.getD .b0
    active := w.active.getD true
    threshold := w.threshold.getD 3
    divisor := w.divisor.getD 8
    reportMode := w.reportMode.getD .onChange
    reportPeriod := w.reportPeriod.getD 10
    compareLength := w.compareLength.getD 24
    lifetime := w.lifetime.getD 16
    health := freshHealth (w.active.getD true)
    misses := 0, countdown := 0, pollsSince := 0, toggle := false, lastValue := none
    okReplies := 0, totalMisses := 0 }

/-- The configuration fields carried replace the record's, the others are kept (R29). -/
def NodeRecord.configure (r : NodeRecord) (w : NodeWrite) : NodeRecord :=
  { r with
    branch := w.branch.getD r.branch
    active := w.active.getD r.active
    threshold := w.threshold.getD r.threshold
    divisor := w.divisor.getD r.divisor
    reportMode := w.reportMode.getD r.reportMode
    reportPeriod := w.reportPeriod.getD r.reportPeriod
    compareLength := w.compareLength.getD r.compareLength
    lifetime := w.lifetime.getD r.lifetime }

/-- The effect on health of a threshold written on a record active before and after (R31). -/
def NodeRecord.thresholdWritten (r : NodeRecord) (t : Nat) : NodeRecord :=
  match r.health with
  | .online | .inactive => r
  | .suspect => if r.misses < t then r else { r with health := .offline, misses := t, countdown := r.divisor }
  | .offline => { r with misses := t }

/-- A record after a WRITE NODE: a change of active decides state and miss count, and otherwise a threshold carried on an
active record does (R29, R30, R31). -/
def NodeRecord.update (r : NodeRecord) (w : NodeWrite) : NodeRecord :=
  let q := r.configure w
  match r.active, q.active with
  | false, true => { q with health := .online, misses := 0 }
  | true, false => { q with health := .inactive, misses := 0, countdown := 0 }
  | false, false => q
  | true, true =>
    match w.threshold with
    | none => q
    | some t => q.thresholdWritten t

/-- A valid WRITE NODE on the record held: the update, and NODE_LOST where the write takes a SUSPECT record OFFLINE, in
the group of the branch after the write (R31). -/
def State.updateRecord (s : State) (r : NodeRecord) (w : NodeWrite) : State :=
  let q := r.update w
  let s := s.onNode r.address fun _ => q
  if r.health = .suspect ∧ q.health = .offline then s.signalNode q.branch .nodeLost r.address else s

/-- WRITE NODE once its form and fields may be written (R28, R29, R159, R165). -/
def writeNode (key item : Byte) (w : Walk) (s : State) : State × Reply :=
  if key.toNat < 1 ∨ 239 < key.toNat ∨ item ≠ 0 then (s, .refused .badIndex)
  else
    match w.gather NodeWrite.empty NodeWrite.add with
    | none => (s, .refused .badValue)
    | some d =>
      match s.node? key.toNat with
      | some r => (s.updateRecord r d, .done)
      | none =>
        if maxRecords ≤ s.nodes.length then (s, .refused .tableFull)
        else ({ s with nodes := insertNode (d.create key.toNat) s.nodes }, .done)

/-! ### SCHED -/

/-- The item of a header write (Formats). -/
def headerItem : Byte := 0xFF

/-- A bank with one entry replaced (R42). -/
def Bank.setEntry (k : Bank) (index : Nat) (e : SlotEntry) : Bank :=
  { k with entries := k.entries.setIfInBounds index e }

/-- A bank with a header written (R45). -/
def Bank.setHeader (k : Bank) (w : HeaderWrite) : Bank :=
  { k with length := w.length.getD k.length, period := w.period.getD k.period }

/-- WRITE SCHED once its form may be written: the branch, the pending swap, the item, the values (R45). -/
def writeSched (key item : Byte) (w : Walk) (s : State) : State × Reply :=
  match Branch.ofNat? key.toNat with
  | none => (s, .refused .badIndex)
  | some b =>
    if (s.br b).swapPending then (s, .refused .busy)
    else if item = headerItem then
      match w.gather HeaderWrite.empty HeaderWrite.add with
      | none => (s, .refused .badValue)
      | some d => (s.onBr b fun B => B.onStandby fun k => k.setHeader d, .done)
    else if 31 < item.toNat then (s, .refused .badIndex)
    else
      match (w.gather EntryWrite.empty EntryWrite.add).bind EntryWrite.entry with
      | none => (s, .refused .badValue)
      | some e => (s.onBr b fun B => B.onStandby fun k => k.setEntry item.toNat e, .done)

/-! ### The meanings -/

/-- A WRITE of a table: the form by the walk, whether it may be written, and then the table's own judgement (R159,
R165, R192). -/
def writeTable (t : Table) (key item : Byte) (fields : List Byte) (s : State) : State × Reply :=
  match walk fields with
  | none => (s, .refused .badRequest)
  | some w =>
    if t.refusesWrite w then (s, .refused .readOnly)
    else
      match t with
      | .device => writeDevice key item w s
      | .branch => writeBranch key item w s
      | .node => writeNode key item w s
      | .sched => writeSched key item w s
      | .queue | .flags | .counters | .pool => (s, .refused .readOnly)

/-- WRITE_DEVICE (R166). -/
def execWriteDevice (tag key item : Byte) (fields : List Byte) (s : State) : Host.Outcome State Fault Refusal :=
  .next (s.requestFrame tag (writeTable .device key item fields))

/-- WRITE_BRANCH (R167). -/
def execWriteBranch (tag key item : Byte) (fields : List Byte) (s : State) : Host.Outcome State Fault Refusal :=
  .next (s.requestFrame tag (writeTable .branch key item fields))

/-- WRITE_NODE (R28, R29). -/
def execWriteNode (tag key item : Byte) (fields : List Byte) (s : State) : Host.Outcome State Fault Refusal :=
  .next (s.requestFrame tag (writeTable .node key item fields))

/-- WRITE_SCHED_ENTRY (R42, R45). -/
def execWriteSchedEntry (tag key item : Byte) (fields : List Byte) (s : State) : Host.Outcome State Fault Refusal :=
  .next (s.requestFrame tag (writeTable .sched key item fields))

/-- WRITE_SCHED_HEADER (R45). -/
def execWriteSchedHeader (tag key : Byte) (fields : List Byte) (s : State) : Host.Outcome State Fault Refusal :=
  .next (s.requestFrame tag (writeTable .sched key headerItem fields))

/-- The table a WRITE_READ_ONLY_TABLE names. -/
def readOnlyTable : ReadOnlyTable → Table
  | .queue => .queue
  | .flags => .flags
  | .counters => .counters
  | .pool => .pool

/-- WRITE_READ_ONLY_TABLE (R165). -/
def execWriteReadOnlyTable (tag : Byte) (table : ReadOnlyTable) (key item : Byte) (fields : List Byte) (s : State) :
    Host.Outcome State Fault Refusal :=
  .next (s.requestFrame tag (writeTable (readOnlyTable table) key item fields))

end Sys2Proof.Machine
end

