-- ==== Sys2Proof/Machine/Resets.lean ====
section
/-! DEFINITION. The three resets (R5, R39, R40, R62, R63, R86, R113, R114, R135, R156, R173, R183, R190). -/
namespace Sys2Proof.Machine

/-- Power-on and pin reset: every block takes its reset values and the straps are sampled. The supplies are inputs and
stay as they are, and so do the queue of commands and the model's own counter (log 7, log 8). -/
def State.hardReset (cause : RestartCause) (sa : Fin 8) (tr : Fin 4) (s : State) : State :=
  { State.reset with
    strap := sa, trunkRate := tr
    branches := s.branches.map fun B => BranchState.reset B.supply
    eu := EventUnit.reset.atReset cause
    pending := s.pending, ticks := s.ticks }

/-- A record after a warm restart: the configuration kept, the health fields afresh (R40). -/
def NodeRecord.restarted (r : NodeRecord) : NodeRecord :=
  { r with
    health := freshHealth r.active, misses := 0, countdown := 0, pollsSince := 0, toggle := false
    lastValue := none, okReplies := 0, totalMisses := 0 }

/-- A branch at a warm restart, before its supervisor acts: the settings, banks, marker and current mode kept; the swap,
the cycle state, the work, the queue, a pending change and the counters dropped (R6, R15, R63, R86, R90, R111, R114). -/
def BranchState.restarted (B : BranchState) : BranchState :=
  { B with
    requested := B.current, supplyWait := false, cycle := Cycle.reset, swapPending := false
    queue := [], slot := none, line := .quiet, counters := BranchCounters.zero }

/-- The supervisor and engine of a branch at a warm restart: OFF stays DISABLED, any other mode waits for its supply
(R114, R190). -/
def State.restartSupply (s : State) (b : Branch) : State :=
  if (s.br b).current = .off then s else s.awaitSupply b

/-- The Delivery Unit at a warm restart: its settings kept (R156). -/
def Delivery.restarted (d : Delivery) : Delivery :=
  { Delivery.reset with window := d.window, timeout := d.timeout, failLimit := d.failLimit }

/-- A warm restart: every block's values first, and then each branch out of OFF awaits its supply (R173, log 14). -/
def State.warmRestart (s : State) : State :=
  let s : State :=
    { s with
      receiver := .hunting, rx := ⟨0, 0, 0, 0⟩, muTag := none, droppedResponses := 0
      nodes := s.nodes.map NodeRecord.restarted
      branches := s.branches.map BranchState.restarted
      pool := [], credits := 0, droppedReports := 0, relaysDropped := 0
      du := s.du.restarted, eu := s.eu.atReset .warm }
  (((s.restartSupply .b0).restartSupply .b1).restartSupply .b2).restartSupply .b3

/-- POWER_ON (R183). -/
def execPowerOn (sa : Fin 8) (tr : Fin 4) (s : State) : Host.Outcome State Fault Refusal :=
  .next (s.hardReset .power sa tr)

/-- PIN_RESET (R5, R183). -/
def execPinReset (sa : Fin 8) (tr : Fin 4) (s : State) : Host.Outcome State Fault Refusal :=
  .next (s.hardReset .pin sa tr)

end Sys2Proof.Machine
end

