-- ==== Sys2Proof/Machine/Requests.lean ====
section
/-! DEFINITION. The management requests on a node, a branch or the part, and the two rows for requests that name no
kind or no table (R37, R38, R47, R100, R102, R159, R168 to R173). -/
namespace Sys2Proof.Machine

/-! ### Requests on one node -/

/-- A request on the record of one address, in the order of R168. -/
def onRecord (address : Byte) (act : State → State) (s : State) : State × Reply :=
  if address.toNat < 1 ∨ 239 < address.toNat then (s, .refused .badIndex)
  else
    match s.node? address.toNat with
    | none => (s, .refused .noEntry)
    | some _ => (act s, .done)

/-- A record after RESET_HEALTH (R37). -/
def NodeRecord.healthReset (r : NodeRecord) : NodeRecord :=
  { r with health := freshHealth r.active, misses := 0, countdown := 0, pollsSince := 0 }

/-- DELETE_NODE: the record leaves, and its queued commands are purged (R38). -/
def requestDelete (address : Byte) : State → State × Reply :=
  onRecord address fun s => State.purgeAll { s with nodes := removeNode address.toNat s.nodes } address.toNat

/-- RESET_HEALTH (R37). -/
def requestResetHealth (address : Byte) : State → State × Reply :=
  onRecord address fun s => s.onNode address.toNat NodeRecord.healthReset

/-- PURGE (R100). -/
def requestPurge (address : Byte) : State → State × Reply :=
  onRecord address fun s => s.purgeAll address.toNat

/-! ### Requests on a branch -/

/-- SWAP: busy with one pending, pending in SCHEDULED, taken at once in OFF and ON_DEMAND (R47). -/
def requestSwap (branch : Byte) (s : State) : State × Reply :=
  match Branch.ofNat? branch.toNat with
  | none => (s, .refused .badIndex)
  | some b =>
    if (s.br b).swapPending then (s, .refused .busy)
    else
      match (s.br b).current with
      | .scheduled => (s.onBr b fun B => { B with swapPending := true }, .done)
      | .off | .onDemand => (s.takeSwap b, .done)

/-- The requested mode recorded, and the change taken at once on an idle branch (R102, R103). The response is offered after
it (R158), where R102 has the answer before the change is taken: DESIGN CHOICE (log 21). -/
def State.requestMode (s : State) (b : Branch) (m : Mode) : State :=
  let s := s.onBr b fun B => { B with requested := m }
  if (s.br b).changePending ∧ (s.br b).slot.isNone then s.takeChange b else s

/-- SET_MODE (R102, R169). -/
def requestSetMode (branch mode : Byte) (s : State) : State × Reply :=
  match Branch.ofNat? branch.toNat with
  | none => (s, .refused .badIndex)
  | some b =>
    match Mode.ofByte? mode with
    | none => (s, .refused .badValue)
    | some m => (s.requestMode b m, .done)

/-! ### Requests on a group -/

/-- CLEAR_FLAGS (R170). -/
def requestClearFlags (group set : Byte) (s : State) : State × Reply :=
  match Group.ofNat? group.toNat with
  | none => (s, .refused .badIndex)
  | some g =>
    match flagSetValue g set with
    | none => (s, .refused .badValue)
    | some v => ({ s with eu := s.eu.onGroup g (·.clear v) }, .done)

/-- Every counter of a group at 0 (R172). -/
def State.clearGroup (s : State) : Group → State
  | .branch b => s.onBr b fun B => { B with counters := BranchCounters.zero }
  | .device =>
    { s with
      rx := ⟨0, 0, 0, 0⟩
      du := { s.du with framesSent := 0, retransmissions := 0, staleAcks := 0 }
      droppedReports := 0, relaysDropped := 0, droppedResponses := 0 }

/-- CLEAR_COUNTERS (R172). -/
def requestClearCounters (group : Byte) (s : State) : State × Reply :=
  match Group.ofNat? group.toNat with
  | none => (s, .refused .badIndex)
  | some g => (s.clearGroup g, .done)

/-! ### A request by its payload -/

/-- A request other than RESTART carried out (R159 to R173). A RESTART is no request with a response (R158) and is taken
by `takePayload`. -/
def carryOut (r : Request) (s : State) : State × Reply :=
  match r with
  | .read table key item selector =>
    match Table.ofNat? table.toNat with
    | none => (s, .refused .badTable)
    | some t => reading (readTable t key item selector) s
  | .write table key item fields =>
    match Table.ofNat? table.toNat with
    | none => if (walk fields).isNone then (s, .refused .badRequest) else (s, .refused .badTable)
    | some t => writeTable t key item fields s
  | .deleteNode address => requestDelete address s
  | .resetHealth address => requestResetHealth address s
  | .purge address => requestPurge address s
  | .swap branch => requestSwap branch s
  | .setMode branch mode => requestSetMode branch mode s
  | .clearFlags group set => requestClearFlags group set s
  | .clearCounters group => requestClearCounters group s
  | .restart | .malformed => (s, .refused .badRequest)

/-- A management request taken by its payload: a RESTART makes a warm restart and no response, every other request is
answered (R157, R158, R173). -/
def State.takePayload (tag : Byte) (payload : List Byte) (s : State) : State :=
  match Request.ofPayload payload with
  | .restart => s.warmRestart
  | r => s.manage tag (carryOut r)

/-! ### The meanings -/

/-- DELETE_NODE (R38, R168). -/
def execDeleteNode (tag address : Byte) (s : State) : Host.Outcome State Fault Refusal :=
  .next (s.requestFrame tag (requestDelete address))

/-- RESET_HEALTH (R37, R168). -/
def execResetHealth (tag address : Byte) (s : State) : Host.Outcome State Fault Refusal :=
  .next (s.requestFrame tag (requestResetHealth address))

/-- PURGE (R100, R168). -/
def execPurge (tag address : Byte) (s : State) : Host.Outcome State Fault Refusal :=
  .next (s.requestFrame tag (requestPurge address))

/-- SWAP (R47, R169). -/
def execSwap (tag branch : Byte) (s : State) : Host.Outcome State Fault Refusal :=
  .next (s.requestFrame tag (requestSwap branch))

/-- SET_MODE (R102, R169). -/
def execSetMode (tag branch mode : Byte) (s : State) : Host.Outcome State Fault Refusal :=
  .next (s.requestFrame tag (requestSetMode branch mode))

/-- CLEAR_FLAGS (R170). -/
def execClearFlags (tag group set : Byte) (s : State) : Host.Outcome State Fault Refusal :=
  .next (s.requestFrame tag (requestClearFlags group set))

/-- CLEAR_COUNTERS (R172). -/
def execClearCounters (tag group : Byte) (s : State) : Host.Outcome State Fault Refusal :=
  .next (s.requestFrame tag (requestClearCounters group))

/-- RESTART with no parameters: a warm restart and no response (R173). -/
def execRestart (_tag : Byte) (s : State) : Host.Outcome State Fault Refusal :=
  .next (s.goodFrame State.warmRestart)

/-- MGMT_BAD_REQUEST: the payload judged as any other, and answered BAD_REQUEST where its form is at fault (R159,
log 12). -/
def execMgmtBadRequest (tag : Byte) (payload : List Byte) (s : State) : Host.Outcome State Fault Refusal :=
  .next (s.goodFrame (State.takePayload tag payload))

/-- MGMT_BAD_TABLE: a READ or WRITE judged as any other, and answered BAD_TABLE where its table is unlisted (R159,
log 12). -/
def execMgmtBadTable (tag : Byte) (write : Bool) (table key item : Byte) (rest : List Byte) (s : State) :
    Host.Outcome State Fault Refusal :=
  .next (s.goodFrame (State.takePayload tag ((if write then 0x02 else 0x01) :: table :: key :: item :: rest)))

end Sys2Proof.Machine
end

