-- ==== Sys2Proof/Machine/Trunk.lean ====
section
/-! DEFINITION. The trunk receiver and the Frame Dispatcher (R10 to R14). -/
namespace Sys2Proof.Machine

/-- A complete frame judged by R12 and dispatched by R13; TRX goes to HUNTING (R10). -/
def State.takeFrame (s : State) (f : LineFrame) : State :=
  let s := { s with receiver := .hunting }
  let bad := { s with rx := { s.rx with badAddresses := bump s.rx.badAddresses } }
  if !f.checkAgrees then { s with rx := { s.rx with checkFails := bump s.rx.checkFails } }
  else if f.address = 0 ∨ 248 ≤ f.address.toNat then bad
  else if 240 ≤ f.address.toNat then
    if f.address ≠ s.station then s
    else if f.kind = kindMgmtReq then s.goodFrame (State.takePayload f.third f.payload)
    else if f.kind = kindAck then s.goodFrame fun s => s.takeAck f.third f.payload
    else bad
  else if f.kind = kindRelay then s.goodFrame fun s => s.takeRelay f.address.toNat f.third f.payload
  else bad

/-- The frame being assembled is abandoned: one fragment, and TRX goes to the state given (R11). -/
def State.abandonFrame (s : State) (next : Receiver) : State :=
  { s with receiver := next, rx := { s.rx with fragments := bump s.rx.fragments } }

/-- The trunk receiver takes a character or a framing error, by its state (R10, R11). -/
def State.receive (s : State) (event : RxEvent) : State :=
  match s.receiver, event with
  | .hunting, .framingError => s
  | .hunting, .character false _ => s
  | .hunting, .character true v => { s with receiver := .receiving [v] }
  | .receiving _, .framingError => s.abandonFrame .hunting
  | .receiving _, .character true v => s.abandonFrame (.receiving [v])
  | .receiving taken, .character false v =>
    match takeData trunkLenLimit taken v with
    | .overLength => s.abandonFrame .hunting
    | .complete f => s.takeFrame f
    | .more taken => { s with receiver := .receiving taken }

/-- TRUNK_CHARACTER (R10): a character with a good stop bit, taken by the state TRX is in; one that completes or abandons
a frame does what R10 gives it (log 6). -/
def execTrunkCharacter (marker : Bool) (value : Byte) (s : State) : Host.Outcome State Fault Refusal :=
  .next (s.receive (.character marker value))

/-- TRUNK_FRAGMENT (R11): the character or framing error that abandons the frame being assembled. -/
def execTrunkFragment (event : RxEvent) (s : State) : Host.Outcome State Fault Refusal :=
  .next (s.receive event)

/-- TRUNK_GAP (R11): the frame being assembled is abandoned; in HUNTING no gap is measured (log 3). -/
def execTrunkGap (s : State) : Host.Outcome State Fault Refusal :=
  .next <|
    match s.receiver with
    | .hunting => s
    | .receiving _ => s.abandonFrame .hunting

/-- TRUNK_FRAME_DISCARD (R12): the complete frame, judged in the order of R12. -/
def execTrunkFrameDiscard (frame : LineFrame) (s : State) : Host.Outcome State Fault Refusal :=
  .next (s.takeFrame frame)

end Sys2Proof.Machine
end

