-- ==== Sys2Proof/Machine/Dispatch.lean ====
section
/-! DEFINITION. One arm for each command of the opcode table. -/
namespace Sys2Proof.Machine

def exec (i : Instr) (s : State) : Host.Outcome State Fault Refusal :=
  match i with
  | .powerOn sa tr => Sys2Proof.Machine.execPowerOn sa tr s
  | .pinReset sa tr => Sys2Proof.Machine.execPinReset sa tr s
  | .trunkFragment event => Sys2Proof.Machine.execTrunkFragment event s
  | .trunkGap => Sys2Proof.Machine.execTrunkGap s
  | .trunkFrameDiscard frame => Sys2Proof.Machine.execTrunkFrameDiscard frame s
  | .ack next payload => Sys2Proof.Machine.execAck next payload s
  | .relay address tag payload => Sys2Proof.Machine.execRelay address tag payload s
  | .mgmtBadRequest tag payload => Sys2Proof.Machine.execMgmtBadRequest tag payload s
  | .readDevice tag key item selector => Sys2Proof.Machine.execReadDevice tag key item selector s
  | .readBranch tag key item selector => Sys2Proof.Machine.execReadBranch tag key item selector s
  | .readNode tag key item selector => Sys2Proof.Machine.execReadNode tag key item selector s
  | .readSched tag key item selector => Sys2Proof.Machine.execReadSched tag key item selector s
  | .readQueue tag key item selector => Sys2Proof.Machine.execReadQueue tag key item selector s
  | .readFlags tag key item selector => Sys2Proof.Machine.execReadFlags tag key item selector s
  | .readCounters tag key item selector => Sys2Proof.Machine.execReadCounters tag key item selector s
  | .readPool tag key item selector => Sys2Proof.Machine.execReadPool tag key item selector s
  | .writeDevice tag key item fields => Sys2Proof.Machine.execWriteDevice tag key item fields s
  | .writeBranch tag key item fields => Sys2Proof.Machine.execWriteBranch tag key item fields s
  | .writeNode tag key item fields => Sys2Proof.Machine.execWriteNode tag key item fields s
  | .writeSchedEntry tag key item fields => Sys2Proof.Machine.execWriteSchedEntry tag key item fields s
  | .writeSchedHeader tag key fields => Sys2Proof.Machine.execWriteSchedHeader tag key fields s
  | .writeReadOnlyTable tag table key item fields => Sys2Proof.Machine.execWriteReadOnlyTable tag table key item fields s
  | .deleteNode tag address => Sys2Proof.Machine.execDeleteNode tag address s
  | .resetHealth tag address => Sys2Proof.Machine.execResetHealth tag address s
  | .purge tag address => Sys2Proof.Machine.execPurge tag address s
  | .swap tag branch => Sys2Proof.Machine.execSwap tag branch s
  | .setMode tag branch mode => Sys2Proof.Machine.execSetMode tag branch mode s
  | .clearFlags tag group set => Sys2Proof.Machine.execClearFlags tag group set s
  | .clearCounters tag group => Sys2Proof.Machine.execClearCounters tag group s
  | .restart tag => Sys2Proof.Machine.execRestart tag s
  | .trunkFrameEnd => Sys2Proof.Machine.execTrunkFrameEnd s
  | .retransmitTimerExpiry => Sys2Proof.Machine.execRetransmitTimerExpiry s
  | .cycleTick b => Sys2Proof.Machine.execCycleTick b s
  | .commandExpiry b => Sys2Proof.Machine.execCommandExpiry b s
  | .attemptFrameSent b => Sys2Proof.Machine.execAttemptFrameSent b s
  | .nothingHeard b => Sys2Proof.Machine.execNothingHeard b s
  | .branchReplyComplete b frame => Sys2Proof.Machine.execBranchReplyComplete b frame s
  | .branchFragment b address cause => Sys2Proof.Machine.execBranchFragment b address cause s
  | .branchGap b address => Sys2Proof.Machine.execBranchGap b address s
  | .settlingEnd b => Sys2Proof.Machine.execSettlingEnd b s
  | .syncSlotEnd b => Sys2Proof.Machine.execSyncSlotEnd b s
  | .gapSlotEnd b => Sys2Proof.Machine.execGapSlotEnd b s
  | .supplyRise b above => Sys2Proof.Machine.execSupplyRise b above s
  | .supplyFall b above => Sys2Proof.Machine.execSupplyFall b above s
  | .qualifyTimerExpiry b => Sys2Proof.Machine.execQualifyTimerExpiry b s
  | .restoreTimerExpiry b => Sys2Proof.Machine.execRestoreTimerExpiry b s
  | .trunkCharacter marker value => Sys2Proof.Machine.execTrunkCharacter marker value s
  | .branchCharacter b marker value => Sys2Proof.Machine.execBranchCharacter b marker value s
  | .mgmtBadTable tag write table key item rest => Sys2Proof.Machine.execMgmtBadTable tag write table key item rest s

end Sys2Proof.Machine
end

