-- ==== Sys2Proof/Config.lean ====
section
/-! DEFINITION. What the manual leaves open, as constants without a body. -/
namespace Sys2Proof

/-- The rank by which the timer expiries that fall on one Time Base tick are ordered: the first argument
numbers the tick, the second the expiry. The manual gives the outcome of either order and chooses none
(R153, R186, 00 "Taken"), so nothing constrains this. DESIGN CHOICE of the form (log 2); safe. -/
opaque Config.tickRank : Nat → Nat → Nat

end Sys2Proof
end

