-- ==== Sys2Proof/Machine/TimeBase.lean ====
section
/-! DEFINITION. The 1 ms tick of the Time Base: every running timer counts, and the expiries of that tick become commands
that wait (R51, R146, R186, log 1, log 2). -/
namespace Sys2Proof.Machine

/-- One more millisecond on a running timer. -/
def countUp (t : Option Nat) : Option Nat := t.map (· + 1)

/-- Whether a timer that has counted this tick has reached or passed its time. -/
def reached (t : Option Nat) (time : Nat) : Bool :=
  match t with
  | none => false
  | some n => decide (time ≤ n)

/-- The timers of a branch one millisecond on; a cycle timer at its period returns to 0 (R51, R186). -/
def BranchState.tick (B : BranchState) : BranchState :=
  { B with
    cycle := { B.cycle with
      timer := if reached (countUp B.cycle.timer) B.active.period then some 0 else countUp B.cycle.timer }
    sup := { B.sup with qualify := countUp B.sup.qualify, restore := countUp B.sup.restore } }

/-- The expiries of branch `b` at this tick (R51, R186). -/
def BranchState.expiries (B : BranchState) (b : Branch) : List Instr :=
  (if reached (countUp B.cycle.timer) B.active.period then [.cycleTick b] else []) ++
  (if reached (countUp B.sup.qualify) B.sup.qualifyTime then [.qualifyTimerExpiry b] else []) ++
  (if reached (countUp B.sup.restore) B.sup.restoreTime then [.restoreTimerExpiry b] else [])

/-- Every expiry of this tick (R51, R146, R186). -/
def State.expiries (s : State) : List Instr :=
  (if reached (countUp s.du.timer) s.du.timeout then [.retransmitTimerExpiry] else []) ++
  (s.br .b0).expiries .b0 ++ (s.br .b1).expiries .b1 ++ (s.br .b2).expiries .b2 ++ (s.br .b3).expiries .b3

/-- A ranked command put at its place in ascending rank. -/
def insertRanked (x : Nat × Instr) : List (Nat × Instr) → List (Nat × Instr)
  | [] => [x]
  | y :: rest => if x.1 < y.1 then x :: y :: rest else y :: insertRanked x rest

/-- The commands ranked by `rank`, a command's rank being that of its place, and put in ascending rank. -/
def ordered (rank : Nat → Nat) : Nat → List Instr → List (Nat × Instr)
  | _, [] => []
  | k, c :: rest => insertRanked (rank k, c) (ordered rank (k + 1) rest)

/-- The tick: timers count, and the expiries wait in an order the manual leaves open (log 2). -/
def State.tick (s : State) : State :=
  { s with
    du := { s.du with timer := countUp s.du.timer }
    branches := s.branches.map BranchState.tick
    pending := s.pending ++ (ordered (Config.tickRank s.ticks) 0 s.expiries).map Prod.snd
    ticks := s.ticks + 1 }

end Sys2Proof.Machine
end

