-- ==== Sys2Proof/Machine/Rows.lean ====
section
/-! DEFINITION. The trunk frame each row of the controller stands for, and the part fed that frame character by character
(R3, R8, R157, Formats). -/
namespace Sys2Proof

/-- The payload of a READ (R160). -/
def readPayload (table : Byte) (key item selector : Byte) : List Byte := [0x01, table, key, item, selector]

/-- The payload of a WRITE (R165). -/
def writePayload (table : Byte) (key item : Byte) (fields : List Byte) : List Byte :=
  0x02 :: table :: key :: item :: fields

/-- The code of a table that cannot be written (Formats). -/
def ReadOnlyTable.code : ReadOnlyTable → Byte
  | .queue => 0x05
  | .flags => 0x06
  | .counters => 0x07
  | .pool => 0x08

/-- The tag and payload of the management request a row stands for (Formats); none for a row that is no request. -/
def Instr.request : Instr → Option (Byte × List Byte)
  | .mgmtBadRequest tag payload => some (tag, payload)
  | .readDevice tag key item selector => some (tag, readPayload 0x01 key item selector)
  | .readBranch tag key item selector => some (tag, readPayload 0x02 key item selector)
  | .readNode tag key item selector => some (tag, readPayload 0x03 key item selector)
  | .readSched tag key item selector => some (tag, readPayload 0x04 key item selector)
  | .readQueue tag key item selector => some (tag, readPayload 0x05 key item selector)
  | .readFlags tag key item selector => some (tag, readPayload 0x06 key item selector)
  | .readCounters tag key item selector => some (tag, readPayload 0x07 key item selector)
  | .readPool tag key item selector => some (tag, readPayload 0x08 key item selector)
  | .writeDevice tag key item fields => some (tag, writePayload 0x01 key item fields)
  | .writeBranch tag key item fields => some (tag, writePayload 0x02 key item fields)
  | .writeNode tag key item fields => some (tag, writePayload 0x03 key item fields)
  | .writeSchedEntry tag key item fields => some (tag, writePayload 0x04 key item fields)
  | .writeSchedHeader tag key fields => some (tag, writePayload 0x04 key 0xFF fields)
  | .writeReadOnlyTable tag table key item fields => some (tag, writePayload table.code key item fields)
  | .deleteNode tag address => some (tag, [0x03, address])
  | .resetHealth tag address => some (tag, [0x04, address])
  | .purge tag address => some (tag, [0x05, address])
  | .swap tag branch => some (tag, [0x06, branch])
  | .setMode tag branch mode => some (tag, [0x07, branch, mode])
  | .clearFlags tag group set => some (tag, [0x08, group, set])
  | .clearCounters tag group => some (tag, [0x09, group])
  | .restart tag => some (tag, [0x0A])
  | .mgmtBadTable tag write table key item rest =>
    some (tag, (if write then 0x02 else 0x01) :: table :: key :: item :: rest)
  | .powerOn .. | .pinReset .. | .trunkFragment .. | .trunkGap | .trunkFrameDiscard .. | .ack .. | .relay ..
  | .trunkFrameEnd | .retransmitTimerExpiry | .cycleTick .. | .commandExpiry .. | .attemptFrameSent ..
  | .nothingHeard .. | .branchReplyComplete .. | .branchFragment .. | .branchGap .. | .settlingEnd ..
  | .syncSlotEnd .. | .gapSlotEnd .. | .supplyRise .. | .supplyFall .. | .qualifyTimerExpiry ..
  | .restoreTimerExpiry .. | .trunkCharacter .. | .branchCharacter .. => none

/-- The good trunk frame a row stands for, sent to a part of this station address; none for a row that is no good
frame (R12, R13). -/
def Instr.trunkFrame (station : Byte) (i : Instr) : Option LineFrame :=
  match i with
  | .ack next payload => some (LineFrame.sealed station Machine.kindAck next payload)
  | .relay address tag payload => some (LineFrame.sealed address Machine.kindRelay tag payload)
  | i => i.request.map fun r => LineFrame.sealed station Machine.kindMgmtReq r.1 r.2

end Sys2Proof

namespace Sys2Proof.Machine

/-- The trunk receiver given a row of characters, one after another (R10). -/
def State.receiveAll (s : State) (characters : List (Bool × Byte)) : State :=
  characters.foldl (fun s c => s.receive (.character c.1 c.2)) s

/-- The row of an event that the receiver of the trunk reports (R2, R10, R11). -/
def trunkEventRow : RxEvent → Instr
  | .character marker value => .trunkCharacter marker value
  | .framingError => .trunkFragment .framingError

/-- The row of an event that the receiver of a branch reports (R2, R15, R16, R72): a framing error is one where it breaks a
frame, and where the line unit is QUIET, when the row's address is not read (log 6); SENDING and HUNTING discard it. -/
def branchEventRow (b : Branch) (line : LineUnit) : RxEvent → Option Instr
  | .character marker value => some (.branchCharacter b marker value)
  | .framingError =>
    match line with
    | .receiving (address :: _) => some (.branchFragment b address .framingError)
    | .quiet => some (.branchFragment b 0 .framingError)
    | .receiving [] | .sending _ | .hunting => none

end Sys2Proof.Machine
end

