-- ==== Sys2Proof/WellFormed.lean ====
section
/-! DEFINITION. Which commands are ones the lines can carry, and are of the row they name. -/
namespace Sys2Proof

/-- Whether a payload is at fault in its form: no listed kind, a length that is not the kind's, or a WRITE that ends
inside a field item (R159, R192). -/
def formAtFault (payload : List Byte) : Bool :=
  match Machine.Request.ofPayload payload with
  | .malformed => true
  | .write _ _ _ fields => (Machine.walk fields).isNone
  | _ => false

/-- The field items of a WRITE fit the 32 payload characters of a trunk frame behind kind, table, key and item (R8). -/
def fieldsFit (fields : List Byte) : Bool := decide (fields.length ≤ 28)

/-- Whether a command is well formed: its payload fits its line (R8), its address is one the row can carry (R7), and it
is of the row it names. Every command is given a meaning, well formed or not. -/
def Instr.wf : Instr → Bool
  | .trunkFragment (.character false v) => decide (32 < v.toNat)
  | .trunkFragment _ => true
  | .trunkFrameDiscard f => decide (f.payload.length ≤ 32)
  | .ack _ payload => decide (payload.length ≤ 32)
  | .relay address _ payload => decide (1 ≤ address.toNat ∧ address.toNat ≤ 239 ∧ payload.length ≤ 32)
  | .mgmtBadRequest _ payload => decide (payload.length ≤ 32) && formAtFault payload
  | .writeDevice _ _ _ fields => fieldsFit fields
  | .writeBranch _ _ _ fields => fieldsFit fields
  | .writeNode _ _ _ fields => fieldsFit fields
  | .writeSchedEntry _ _ item fields => decide (item ≠ 0xFF) && fieldsFit fields
  | .writeSchedHeader _ _ fields => fieldsFit fields
  | .writeReadOnlyTable _ _ _ _ fields => fieldsFit fields
  | .branchReplyComplete _ f => decide (f.payload.length ≤ 24)
  | .mgmtBadTable _ write table _ _ rest =>
    (Machine.Table.ofNat? table.toNat).isNone &&
      (if write then fieldsFit rest && (Machine.walk rest).isSome else decide (rest.length = 1))
  | .powerOn .. | .pinReset .. | .trunkGap | .readDevice .. | .readBranch .. | .readNode .. | .readSched ..
  | .readQueue .. | .readFlags .. | .readCounters .. | .readPool .. | .deleteNode .. | .resetHealth .. | .purge ..
  | .swap .. | .setMode .. | .clearFlags .. | .clearCounters .. | .restart .. | .trunkFrameEnd
  | .retransmitTimerExpiry | .cycleTick .. | .commandExpiry .. | .attemptFrameSent .. | .nothingHeard ..
  | .branchFragment .. | .branchGap .. | .settlingEnd .. | .syncSlotEnd .. | .gapSlotEnd .. | .supplyRise ..
  | .supplyFall .. | .qualifyTimerExpiry .. | .restoreTimerExpiry .. | .trunkCharacter .. | .branchCharacter .. => true

end Sys2Proof
end

