-- ==== Sys2Proof/Safety.lean ====
section
/-! DEFINITION. What holds of the part between any two steps: the whole-machine statements of the manual, as properties
of a state. -/
namespace Sys2Proof.Machine

/-! ### A good frame and its answer -/

/-- The part as the block that takes a good frame finds it: TRX HUNTING, the frame counted, and its arrival presented to
the Delivery Unit (R10, R12 step 5, R13). -/
def State.arrived (s : State) : State :=
  State.recover { s with receiver := .hunting, rx := { s.rx with good := bump s.rx.good } }

/-- The part while the Management Unit holds the tag of a request just taken (R157). -/
def State.inHand (s : State) (tag : Byte) : State := { s.arrived with muTag := some tag }

/-- The part after a request is answered: the response offered to the pool, no tag held, and the Delivery Unit's choice
made (R138, R157, R158). -/
def State.answered (s : State) (tag : Byte) (status : Status) (data : List Byte) : State :=
  State.choice { s.respond tag { status := status, data := data } with muTag := none }

/-- A request whose item and selector are not used, answered with data (R160). -/
def State.answeredPlain (s : State) (tag item selector : Byte) (data : List Byte) : State :=
  if item ≠ 0 then s.answered tag .badIndex []
  else if selector ≠ 0 then s.answered tag .badValue []
  else s.answered tag .ok data

/-! ### Families of commands -/

/-- The branch of a row that is an event of one branch: its cycle, its line, its supply. -/
def branchRow : Instr → Option Branch
  | .cycleTick b | .commandExpiry b | .attemptFrameSent b | .nothingHeard b | .branchReplyComplete b _
  | .branchFragment b _ _ | .branchGap b _ | .settlingEnd b | .syncSlotEnd b | .gapSlotEnd b | .supplyRise b _
  | .supplyFall b _ | .qualifyTimerExpiry b | .restoreTimerExpiry b | .branchCharacter b _ _ => some b
  | .powerOn .. | .pinReset .. | .trunkFragment .. | .trunkGap | .trunkFrameDiscard .. | .ack .. | .relay ..
  | .mgmtBadRequest .. | .readDevice .. | .readBranch .. | .readNode .. | .readSched .. | .readQueue .. | .readFlags ..
  | .readCounters .. | .readPool .. | .writeDevice .. | .writeBranch .. | .writeNode .. | .writeSchedEntry ..
  | .writeSchedHeader .. | .writeReadOnlyTable .. | .deleteNode .. | .resetHealth .. | .purge .. | .swap .. | .setMode ..
  | .clearFlags .. | .clearCounters .. | .restart .. | .trunkFrameEnd | .retransmitTimerExpiry | .trunkCharacter ..
  | .mgmtBadTable .. => none

/-! ### The node table -/

/-- A record within the ranges of R18 and R19, in one row of the table of R21. The probe countdown runs for an OFFLINE
record alone (R22, R23, R30, R37). -/
structure NodeRecord.Ok (r : NodeRecord) : Prop where
  address       : 1 ≤ r.address ∧ r.address ≤ 239
  threshold     : 1 ≤ r.threshold ∧ r.threshold ≤ 15
  divisor       : 1 ≤ r.divisor ∧ r.divisor ≤ 255
  reportPeriod  : 1 ≤ r.reportPeriod ∧ r.reportPeriod ≤ 255
  compareLength : r.compareLength ≤ 24
  lifetime      : 1 ≤ r.lifetime ∧ r.lifetime ≤ 255
  pollsSince    : r.pollsSince ≤ 255
  inactive      : r.health = .inactive ↔ r.active = false
  offline       : r.health = .offline ↔ r.misses = r.threshold
  suspect       : r.health = .suspect ↔ 1 ≤ r.misses ∧ r.misses < r.threshold
  fresh         : r.health = .online ∨ r.health = .inactive → r.misses = 0
  countdown     : if r.health = .offline then 1 ≤ r.countdown ∧ r.countdown ≤ 255 else r.countdown = 0

/-- The node table holds at most 96 records, no two with one address (R17), each as R21 says, and the last-node bytes
are addresses or 0 (R174). -/
structure TableOk (s : State) : Prop where
  few       : s.nodes.length ≤ maxRecords
  ascending : s.nodes.Pairwise fun q r => q.address < r.address
  records   : ∀ r ∈ s.nodes, r.Ok
  lastNode  : ∀ b : Branch, s.eu.lastNode.get b ≤ 239

/-! ### The downlink queues -/

/-- A queue holds at most eight entries (R96), each younger than its lifetime (R57) and for a node that is held
(R100). -/
structure QueueOk (nodes : List NodeRecord) (queue : List Command) : Prop where
  few   : queue.length ≤ queueDepth
  young : ∀ c ∈ queue, c.age < c.lifetime ∧ c.lifetime ≤ 255
  held  : ∀ c ∈ queue, (findNode c.node nodes).isSome = true

/-- Every queue is as R96, R57 and R100 say, over a table as R21 says. -/
structure QueuesOk (s : State) : Prop where
  table  : TableOk s
  queues : ∀ b : Branch, QueueOk s.nodes (s.br b).queue

/-! ### Branches -/

/-- The line unit and the slot record agree: what is sent is the frame of the slot, a reply is heard in LISTENING
alone, and the line is quiet otherwise (R15, R53, R64, R69, R72, R82, R83). -/
def lineAgrees (b : Branch) (number : Half) (slot : Option SlotRecord) (line : LineUnit) : Prop :=
  match slot with
  | none => line = .quiet
  | some { phase := .sending, work := .poll w, .. } => line = .sending w.lineFrame
  | some { phase := .sending, work := .sync, .. } => line = .sending (syncFrame b number)
  | some { phase := .listening, work := .poll _, .. } => line = .hunting ∨ ∃ taken, line = .receiving taken
  | some { phase := .settling, work := .poll _, .. } => line = .quiet
  | some { phase := .holding, work := .gap _, .. } => line = .quiet
  | some _ => False

/-- What the supervisor's state says of its timers, its mark and the comparator (R184, R185, R187, R188, R189). -/
structure SupplyOk (B : BranchState) : Prop where
  qualify   : B.sup.qualify.isSome = true ↔ B.sup.state = .lowPending
  restore   : B.sup.restore.isSome = true ↔ B.sup.state = .restorePending ∧ B.above = true
  marked    : B.sup.state = .fault → B.sup.faultMark = true
  unmarked  : B.sup.faultMark = true → B.sup.state = .fault ∨ B.sup.state = .restorePending
  below     : B.sup.state = .lowPending ∨ B.sup.state = .fault → B.above = false
  above     : B.sup.state = .normal → B.sup.enabled = true → B.above = true
  disabled  : B.sup.enabled = false → B.sup.state = .normal ∨ B.sup.state = .disabled

/-- What holds of a branch between steps: a branch without a usable supply has no work (R107), the supply wait mark
waits for NORMAL (R105), the cycle state and timer go with the mode (R52, R53, R60), a slot is in progress exactly
while a cycle runs or a transaction does (R53, R65, R84), a pending change waits for a slot (R103), a pending swap is
one of a SCHEDULED branch (R47, R49), and an idle ON_DEMAND branch has nothing queued (R108). -/
structure BranchOk (b : Branch) (B : BranchState) : Prop where
  supply      : SupplyOk B
  line        : lineAgrees b B.cycle.number B.slot B.line
  offDisabled : B.current = .off ↔ B.sup.state = .disabled
  noSupply    : B.sup.state.usable = false → B.queue = [] ∧ B.slot = none
  waiting     : B.supplyWait = true → B.sup.state = .restorePending
  idleCycle   : B.current ≠ .scheduled ∨ B.supplyWait = true → B.cycle.phase = .stopped ∧ B.cycle.timer = none
  cycling     : B.current = .scheduled → B.supplyWait = false → B.cycle.phase ≠ .stopped ∧ B.cycle.timer.isSome = true
  running     : B.current = .scheduled → (B.slot.isSome = true ↔ B.cycle.phase = .running)
  late        : B.cycle.late = true → B.cycle.phase = .running
  transaction : B.current = .onDemand → ∀ r, B.slot = some r → ∃ w, r.work = .poll w
  onDemand    : B.current = .onDemand → B.slot = none → B.queue = []
  change      : B.changePending = true → B.slot.isSome = true
  swap        : B.swapPending = true → B.current = .scheduled

/-- Every branch is as R52 to R108 and R184 to R189 say. -/
def BranchesOk (s : State) : Prop := ∀ b : Branch, BranchOk b (s.br b)

/-! ### The uplink pool -/

/-- The commands a branch owes a RESULT for: those queued and the one in flight (R118). -/
def BranchState.owed (B : BranchState) : Nat := B.queue.length + if B.inFlight.isSome then 1 else 0

/-- The REPORT entries held, QUEUED and SENT (R124). -/
def State.reportsHeld (s : State) : Nat := s.pool.countP fun e => e.cls == .report

/-- The credit count and the ceilings of the pool, over branches as they should be (R117 to R125). -/
structure PoolOk (s : State) : Prop where
  branches  : BranchesOk s
  credits   : s.credits = (s.br .b0).owed + (s.br .b1).owed + (s.br .b2).owed + (s.br .b3).owed
  room      : s.occupancy ≤ poolSize
  responses : s.queuedCount .mgmtResp ≤ responseLimit
  reports   : s.reportsHeld ≤ reportCeiling
  alerts    : s.queuedCount .alert = 0

/-! ### Delivery -/

/-- The sequence number of a SENT entry. -/
def Entry.seq? (e : Entry) : Option (BitVec 4) :=
  match e.state with
  | .queued => none
  | .sent q => some q

/-- The sequence numbers of the SENT entries, in the pool's order (R136). -/
def State.sentSeqs (s : State) : List (BitVec 4) := s.pool.filterMap Entry.seq?

/-- `n` numbers counted up from `first` modulo 16. -/
def seqsFrom (first : BitVec 4) (n : Nat) : List (BitVec 4) := (List.range n).map fun k => first + BitVec.ofNat 4 k

/-- The sequence numbers, the timer, the timeout count and the round as R136, R140, R146, R148 and R149 say. -/
structure DeliveryOk (s : State) : Prop where
  consecutive : s.sentSeqs.Perm (seqsFrom s.oldestSeq s.sentCount)
  few         : s.sentCount ≤ 8
  timer       : s.du.timer.isSome = true ↔ 0 < s.sentCount ∧ s.du.trunk ≠ .down
  up          : s.du.trunk = .up → s.du.timeoutCount = 0
  retrying    : s.du.trunk = .retrying → 1 ≤ s.du.timeoutCount ∧ s.du.timeoutCount ≤ 14
  timeouts    : s.du.timeoutCount ≤ 15
  round       : ∀ p, s.du.round = some p → p ∈ s.sentSeqs ∧ s.du.trunk ≠ .down
  window      : 1 ≤ s.du.window ∧ s.du.window ≤ 8
  timeout     : 2 ≤ s.du.timeout ∧ s.du.timeout ≤ 255
  failLimit   : 2 ≤ s.du.failLimit ∧ s.du.failLimit ≤ 15

/-! ### Settings and flags -/

/-- A slot entry within the ranges of its kind (R41). -/
def SlotEntry.Ok : SlotEntry → Prop
  | .poll node window retries => 1 ≤ node ∧ node ≤ 239 ∧ 2 ≤ window ∧ window ≤ 255 ∧ retries ≤ 3
  | .sync => True
  | .gap n => 1 ≤ n ∧ n ≤ 4095

/-- A bank within the ranges of R41 and R44. -/
structure Bank.Ok (k : Bank) : Prop where
  entries : ∀ e ∈ k.entries.toList, e.Ok
  length  : k.length ≤ 32
  period  : 2 ≤ k.period ∧ k.period ≤ 60000

/-- The settings of a branch within their ranges (R44, R111, R184). -/
structure BranchState.SettingsOk (B : BranchState) : Prop where
  bankA       : B.bankA.Ok
  bankB       : B.bankB.Ok
  level       : B.sup.level ≤ 7
  qualifyTime : 1 ≤ B.sup.qualifyTime ∧ B.sup.qualifyTime ≤ 255
  restoreTime : 1 ≤ B.sup.restoreTime ∧ B.sup.restoreTime ≤ 255
  odWindow    : 2 ≤ B.odWindow ∧ B.odWindow ≤ 255
  odRetries   : B.odRetries ≤ 3

/-- A group holds and enables no flag but its own (R174, R193). -/
def FlagGroup.Within (all : Byte) (g : FlagGroup) : Prop := g.flags &&& ~~~all = 0 ∧ g.enables &&& ~~~all = 0

/-- Every setting of a branch is in its range, and every group shows its own flags alone (R41, R44, R111, R174, R184,
R193). -/
structure SettingsOk (s : State) : Prop where
  branches : ∀ b : Branch, (s.br b).SettingsOk
  groups   : ∀ b : Branch, (s.eu.groups.get b).Within branchFlagSet
  device   : s.eu.device.Within deviceFlagSet

/-! ### Frames -/

/-- What a receiver can have taken of a frame it still assembles: at least the address, LEN within the limit once it is
taken, and fewer than the 6 + LEN characters that complete it (R10, R16). -/
def partialFrame (limit : Nat) (taken : List Byte) : Prop :=
  1 ≤ taken.length ∧
    match taken with
    | _ :: _ :: _ :: len :: _ => len.toNat ≤ limit ∧ taken.length < 6 + len.toNat
    | _ => True

/-- The trunk receiver holds no frame, or the beginning of one (R10). -/
def ReceiverOk (s : State) : Prop :=
  match s.receiver with
  | .hunting => True
  | .receiving taken => partialFrame trunkLenLimit taken

/-- What the line unit sends or assembles fits the branch (R8, R16). -/
def LineUnit.Fits : LineUnit → Prop
  | .quiet => True
  | .hunting => True
  | .sending f => f.payload.length ≤ branchLenLimit
  | .receiving taken => partialFrame branchLenLimit taken

/-- Every payload a branch holds fits its line (R8, R64, R96); a reply kept ends its work in the same step (R73), and so
none is held between steps (log 16). -/
structure BranchState.Fits (B : BranchState) : Prop where
  line     : B.line.Fits
  queue    : ∀ c ∈ B.queue, c.payload.length ≤ branchLenLimit
  inFlight : ∀ c, B.inFlight = some c → c.payload.length ≤ branchLenLimit
  noReply  : ∀ phase w, B.pollWork = some (phase, w) → w.reply = none

/-- Every payload held or sent fits its line, and the frame on the trunk carries its check, where the commands that wait
are well formed (R8, R9, R19, R115). -/
structure FramesFit (s : State) : Prop where
  pending     : ∀ c ∈ s.pending, c.wf = true
  pool        : ∀ e ∈ s.pool, 2 ≤ e.payload.length ∧ e.payload.length ≤ trunkLenLimit
  transmitter : ∀ f, s.du.transmitter = some f → f.payload.length ≤ trunkLenLimit ∧ f.checkAgrees = true
  branches    : ∀ b : Branch, (s.br b).Fits
  lastValues  : ∀ r ∈ s.nodes, ∀ v, r.lastValue = some v → v.length ≤ branchLenLimit

end Sys2Proof.Machine
end

