-- ==== Sys2Proof/Certificates/Slice0/Obligations.lean ====
section
/-! DEFINITION. The statements for the provers. -/
open Sys2Proof Sys2Proof.Machine

/-! ### The queue of commands, time, and every command -/

/-- The command at the front of the queue is carried out with the queue's rest. -/
def Obligations.StepRunsFront : Prop :=
  ∀ (s : State) (c : Instr) (rest : List Instr), s.pending = c :: rest → step s = exec c { s with pending := rest }

/-- With no command waiting one millisecond passes (log 1, the model's choice of when): every running timer counts, a
cycle timer that reaches or passes its period returns to 0, and exactly the expiries of R51, R146 and R186 then wait,
in an order that is left open (log 2). -/
def Obligations.EmptyQueueTick : Prop :=
  ∀ s : State, s.pending = [] → ∃ order : List Instr,
    step s = .next { s with
      du := { s.du with timer := s.du.timer.map (· + 1) }
      branches := s.branches.map fun B => { B with
        cycle := { B.cycle with
          timer := B.cycle.timer.map fun n => if B.active.period ≤ n + 1 then 0 else n + 1 }
        sup := { B.sup with qualify := B.sup.qualify.map (· + 1), restore := B.sup.restore.map (· + 1) } }
      pending := order
      ticks := s.ticks + 1 } ∧
    order.Nodup ∧
    ∀ c, c ∈ order ↔
      (c = .retransmitTimerExpiry ∧ ∃ n, s.du.timer = some n ∧ s.du.timeout ≤ n + 1) ∨
      (∃ b n, c = .cycleTick b ∧ (s.br b).cycle.timer = some n ∧ (s.br b).active.period ≤ n + 1) ∨
      (∃ b n, c = .qualifyTimerExpiry b ∧ (s.br b).sup.qualify = some n ∧ (s.br b).sup.qualifyTime ≤ n + 1) ∨
      (∃ b n, c = .restoreTimerExpiry b ∧ (s.br b).sup.restore = some n ∧ (s.br b).sup.restoreTime ≤ n + 1)

/-- Every command, in every state and with every operand, has an outcome and stops nothing (00, About this manual),
and none reaches the queue of commands or the tick counter. That no command, the resets included, reaches the queue
of commands or the tick counter, which are the model's own, is its choice (log 8, log 18). -/
def Obligations.EveryCommandAnswersNext : Prop :=
  ∀ (c : Instr) (s : State), ∃ t, exec c s = .next t ∧ t.pending = s.pending ∧ t.ticks = s.ticks

/-- A row whose event cannot arise in the state it finds has no effect of its own (the model's choice, log 3): a
timer that does not run, a gap while hunting, a transmitter that is free, a line event of a branch that is in no such
phase; a framing error on a QUIET line is heard by a slot that settles alone. Where the row is one after which the
Delivery Unit may choose, that choice is made (R138). -/
def Obligations.RowsWithoutTheirEvent : Prop :=
  ∀ (s : State) (b : Branch),
    (s.receiver = .hunting → exec .trunkGap s = .next s) ∧
    (s.du.transmitter = none → exec .trunkFrameEnd s = .next s) ∧
    (s.du.timer = none → exec .retransmitTimerExpiry s = .next s) ∧
    ((s.br b).cycle.timer = none → exec (.cycleTick b) s = .next s) ∧
    ((s.br b).sup.state ≠ .lowPending ∨ (s.br b).sup.qualify = none → exec (.qualifyTimerExpiry b) s = .next s) ∧
    ((s.br b).sup.state ≠ .restorePending ∨ (s.br b).sup.restore = none →
      exec (.restoreTimerExpiry b) s = .next s) ∧
    ((∀ rate w, (s.br b).slot ≠ some { rate := rate, phase := .sending, work := .poll w }) →
      exec (.attemptFrameSent b) s = .next s) ∧
    ((∀ rate w, (s.br b).slot ≠ some { rate := rate, phase := .settling, work := .poll w }) →
      exec (.settlingEnd b) s = .next s) ∧
    ((∀ rate phase, (s.br b).slot ≠ some { rate := rate, phase := phase, work := .sync }) →
      exec (.syncSlotEnd b) s = .next s) ∧
    ((∀ rate phase n, (s.br b).slot ≠ some { rate := rate, phase := phase, work := .gap n }) →
      exec (.gapSlotEnd b) s = .next s) ∧
    ((∀ rate w, (s.br b).slot ≠ some { rate := rate, phase := .listening, work := .poll w }) ∨
        (s.br b).line ≠ .hunting → exec (.nothingHeard b) s = .next s) ∧
    ((∀ rate w, (s.br b).slot ≠ some { rate := rate, phase := .listening, work := .poll w }) ∨
        (s.br b).line = .quiet ∨ (∃ f, (s.br b).line = .sending f) →
      (∀ f, exec (.branchReplyComplete b f) s = .next s.choice) ∧
      (∀ a, exec (.branchGap b a) s = .next s.choice) ∧
      ∀ a cause,
        cause ≠ .framingError ∨ (s.br b).line ≠ .quiet ∨
          (∀ rate w, (s.br b).slot ≠ some { rate := rate, phase := .settling, work := .poll w }) →
        exec (.branchFragment b a cause) s = .next s)

/-! ### Resets -/

/-- The part right after power-on (R10, R14, R39, R62, R64, R111, R113, R132, R135, R155, R156, R171, R183, R184); the
straps and the supplies are inputs (logs 7 and 8), and so named in no clause. -/
def Obligations.ResetState : Prop :=
  State.reset.receiver = .hunting ∧ State.reset.rx = ⟨0, 0, 0, 0⟩ ∧ State.reset.muTag = none ∧
  State.reset.droppedResponses = 0 ∧ State.reset.nodes = [] ∧ State.reset.pool = [] ∧ State.reset.credits = 0 ∧
  State.reset.droppedReports = 0 ∧ State.reset.relaysDropped = 0 ∧
  State.reset.du =
    { trunk := .down, nextSeq := 0, timer := none, timeoutCount := 0, round := none, transmitter := none
      window := 8, timeout := 20, failLimit := 6, framesSent := 0, retransmissions := 0, staleAcks := 0 } ∧
  (∀ b : Branch, State.reset.eu.groups.get b = { flags := 0, enables := 0x7F, pending := false } ∧
    State.reset.eu.lastNode.get b = 0) ∧
  State.reset.eu.device = { flags := 0x01, enables := 0x1F, pending := true } ∧ State.reset.eu.cause = .power ∧
  ∀ b : Branch, ∃ supply, State.reset.br b =
    { rate := .r19200, odWindow := 20, odRetries := 1, current := .off, requested := .off, supplyWait := false
      cycle := { phase := .stopped, late := false, index := 0, number := 0, timer := none }
      bankA := { entries := Vector.replicate 32 (.gap 1), length := 0, period := 1000 }
      bankB := { entries := Vector.replicate 32 (.gap 1), length := 0, period := 1000 }
      activeBank := .a, swapPending := false, queue := [], slot := none, line := .quiet
      counters := ⟨0, 0, 0, 0, 0, 0, 0, 0, 0, 0, 0, 0, 0⟩
      sup := { state := .disabled, restore := none, qualify := none, faultMark := false
               enabled := true, level := 3, qualifyTime := 10, restoreTime := 50 }
      supply := supply }

/-- Every invariant stated below holds right after power-on. -/
def Obligations.InvariantsAtReset : Prop :=
  QueuesOk State.reset ∧ PoolOk State.reset ∧ DeliveryOk State.reset ∧ SettingsOk State.reset ∧
    ReceiverOk State.reset ∧ FramesFit State.reset

/-- Power-on and pin reset give every block its reset values and sample the straps, and differ in the restart cause
alone (R4, R5, R6, R10, R14, R39, R62, R64, R113, R132, R135, R156, R171, R183, R184). The supplies are inputs and
stay (log 7); the straps sampled are the rows' operands, and the queue of commands and the tick counter stay (log 8):
these are the model's choices. The trunk rate sampled is one of the four of R5. -/
def Obligations.PowerAndPinReset : Prop :=
  (∀ (s : State) (sa : Fin 8) (tr : Fin 4), ∃ t,
     exec (.powerOn sa tr) s = .next t ∧
     exec (.pinReset sa tr) s = .next { t with eu := { t.eu with cause := .pin } } ∧
     t = { State.reset with
       strap := sa, trunkRate := tr
       branches := s.branches.map fun B => { State.reset.br .b0 with supply := B.supply }
       pending := s.pending, ticks := s.ticks }) ∧
  ([0, 1, 2, 3] : List (Fin 4)).map trunkBitsPerSecond = [115200, 230400, 460800, 921600]

/-- A warm restart (R173 and the rules its table names): configuration kept, health afresh, work abandoned, pool and
queues emptied without RESULTs, the trunk DOWN, counters 0, RESTART signalled with cause WARM; then each branch out
of OFF awaits its supply (R114, R190, the order of log 14). Nothing is answered, and the queue of commands and the
tick counter stay (log 8). -/
def Obligations.WarmRestart : Prop :=
  ∀ (s : State) (tag : Byte), ∃ v : State,
    (let await (b : Branch) (u : State) : State := if (u.br b).current = .off then u else u.awaitSupply b
     exec (.restart tag) s = .next (await .b3 (await .b2 (await .b1 (await .b0 v))))) ∧
    v.strap = s.strap ∧ v.trunkRate = s.trunkRate ∧ v.receiver = .hunting ∧ v.rx = ⟨0, 0, 0, 0⟩ ∧ v.muTag = none ∧
    v.droppedResponses = 0 ∧ v.pool = [] ∧ v.credits = 0 ∧ v.droppedReports = 0 ∧ v.relaysDropped = 0 ∧
    v.pending = s.pending ∧ v.ticks = s.ticks ∧
    v.nodes = s.nodes.map (fun r => { r with
      health := if r.active then .online else .inactive
      misses := 0, countdown := 0, pollsSince := 0, toggle := false, lastValue := none
      okReplies := 0, totalMisses := 0 }) ∧
    v.du = { trunk := .down, nextSeq := 0, timer := none, timeoutCount := 0, round := none, transmitter := none
             window := s.du.window, timeout := s.du.timeout, failLimit := s.du.failLimit
             framesSent := 0, retransmissions := 0, staleAcks := 0 } ∧
    (∀ b : Branch, v.br b = { s.br b with
      requested := (s.br b).current, supplyWait := false
      cycle := { phase := .stopped, late := false, index := 0, number := 0, timer := none }
      swapPending := false, queue := [], slot := none, line := .quiet
      counters := ⟨0, 0, 0, 0, 0, 0, 0, 0, 0, 0, 0, 0, 0⟩ }) ∧
    (∀ b : Branch, v.eu.lastNode.get b = 0 ∧
      v.eu.groups.get b = { flags := 0, enables := (s.eu.groups.get b).enables, pending := false }) ∧
    v.eu.device = { flags := 0x01, enables := s.eu.device.enables, pending := s.eu.device.enables &&& 0x01 != 0 } ∧
    v.eu.cause = .warm

/-! ### Characters, the check and trunk reception -/

/-- The eleven bits of a character, and what a receiver makes of eleven sampled levels: a false start is ignored, a stop
bit at 0 is a framing error, and a character that is sent is the one received (R1, R2). -/
def Obligations.CharacterBits : Prop :=
  (∀ (marker : Bool) (v : Byte), characterBits marker v =
    [false, v.getLsbD 0, v.getLsbD 1, v.getLsbD 2, v.getLsbD 3, v.getLsbD 4, v.getLsbD 5, v.getLsbD 6, v.getLsbD 7,
      marker, true]) ∧
  (∀ (marker : Bool) (v : Byte), sampleCharacter (characterBits marker v) = some (.character marker v)) ∧
  (∀ v0 v1 v2 v3 v4 v5 v6 v7 marker : Bool,
    sampleCharacter [false, v0, v1, v2, v3, v4, v5, v6, v7, marker, false] = some .framingError) ∧
  (∀ v0 v1 v2 v3 v4 v5 v6 v7 marker stop : Bool,
    sampleCharacter [true, v0, v1, v2, v3, v4, v5, v6, v7, marker, stop] = none)

/-- How a receiver finds characters on its line, at any resolution of `half` samples to half a bit time (R1, R2). A
line at 1 is nothing. A fall that is back at 1 by the middle of its bit is a false start. Characters sent back to
back are the characters received. A stop bit at 0 is a framing error, after which the receiver waits for the line to
return to 1, so that a line held at 0 yields exactly one, however long it is held; then it looks for the next start
bit. On the trunk and on a branch the event is a row of the table. That State does not hold the receiver's place
within a character is log 5. -/
def Obligations.LineReception : Prop :=
  (∀ half : Nat, 1 ≤ half →
     (∀ n, Sampler.run half .looking (List.replicate n true) = (.looking, [])) ∧
     (∀ low high, 1 ≤ low → low ≤ half → half < low + high →
       Sampler.run half .looking (List.replicate low false ++ List.replicate high true) = (.looking, [])) ∧
     (∀ sent : List (Bool × Byte),
       Sampler.run half .looking (sent.flatMap fun c => lineLevels half (characterBits c.1 c.2)) =
         (.looking, sent.map fun c => .character c.1 c.2)) ∧
     (∀ v0 v1 v2 v3 v4 v5 v6 v7 marker : Bool,
       Sampler.run half .looking (lineLevels half [false, v0, v1, v2, v3, v4, v5, v6, v7, marker, false]) =
         (.heldLow, [.framingError])) ∧
     (∀ n, (n ≤ 21 * half → (Sampler.run half .looking (List.replicate n false)).2 = []) ∧
       (21 * half < n → Sampler.run half .looking (List.replicate n false) = (.heldLow, [.framingError]))) ∧
     (∀ n, Sampler.run half .heldLow (List.replicate n false) = (.heldLow, [])) ∧
     ∀ n rest, Sampler.run half .heldLow (List.replicate n false ++ true :: rest) = Sampler.run half .looking rest) ∧
  (∀ (b : Branch) (marker : Bool) (v a : Byte) (taken : List Byte) (line : LineUnit),
     trunkEventRow (.character marker v) = .trunkCharacter marker v ∧
     trunkEventRow .framingError = .trunkFragment .framingError ∧
     branchEventRow b line (.character marker v) = some (.branchCharacter b marker v) ∧
     branchEventRow b (.receiving (a :: taken)) .framingError = some (.branchFragment b a .framingError) ∧
     branchEventRow b .hunting .framingError = none ∧
     branchEventRow b .quiet .framingError = some (.branchFragment b 0 .framingError))

/-- The check of R9: its register starts at FFFFh, takes each value into its high eight bits and is stepped eight times;
carried on through the two check characters, high byte first, it ends at 0000h exactly when they agree; the reference
value; and every frame the HX4 builds carries its check, so that it agrees. -/
def Obligations.CheckValue : Prop :=
  (checkOf [] = 0xFFFF#16) ∧
  (∀ (vs : List Byte) (v : Byte), checkOf (vs ++ [v]) =
    (List.range 8).foldl (fun r _ => if r.msb then (r <<< 1) ^^^ 0x1021#16 else r <<< 1)
      (checkOf vs ^^^ (v.setWidth 16 <<< 8))) ∧
  (∀ (vs : List Byte) (h l : Byte), checkOf (vs ++ [h, l]) = 0 ↔ (h ++ l : Half) = checkOf vs) ∧
  checkOf [0x31, 0x32, 0x33, 0x34, 0x35, 0x36, 0x37, 0x38, 0x39] = 0x29B1#16 ∧
  (∀ f : LineFrame, f.checkAgrees = true ↔
    f.check = checkOf (f.address :: f.kind :: f.third :: BitVec.ofNat 8 f.payload.length :: f.payload)) ∧
  (∀ (a k t : Byte) (p : List Byte), ∃ h l : Byte,
    (LineFrame.sealed a k t p).values = [a, k, t, BitVec.ofNat 8 p.length] ++ p ++ [h, l] ∧
    (h ++ l : Half) = checkOf ([a, k, t, BitVec.ofNat 8 p.length] ++ p) ∧ (LineFrame.sealed a k t p).checkAgrees = true)

/-- The trunk receiver by its state (R10, R11). HUNTING discards data characters and framing errors, and starts a
frame at an address character. RECEIVING appends; a character that makes the count 6 + LEN completes the frame, which
is then judged as TRUNK_FRAME_DISCARD judges it. A new address character, a framing error, a LEN above 32 and a gap
each abandon it and count one fragment. A row is one character whichever of the two it is called (the model's choice,
log 6). -/
def Obligations.TrunkReception : Prop :=
  (∀ (s : State) (v : Byte),
     (s.receiver = .hunting →
       exec (.trunkCharacter false v) s = .next s ∧
       exec (.trunkCharacter true v) s = .next { s with receiver := .receiving [v] }) ∧
     ∀ taken : List Byte, s.receiver = .receiving taken → taken ≠ [] →
       (partialFrame 32 (taken ++ [v]) →
         exec (.trunkCharacter false v) s = .next { s with receiver := .receiving (taken ++ [v]) }) ∧
       (∀ f : LineFrame, f.payload.length ≤ 32 → taken ++ [v] = f.values →
         exec (.trunkCharacter false v) s = exec (.trunkFrameDiscard f) s)) ∧
  (∀ (s : State) (v : Byte),
     (∀ taken : List Byte, s.receiver = .receiving taken →
       exec (.trunkFragment .framingError) s =
         .next { s with receiver := .hunting, rx := { s.rx with fragments := bump s.rx.fragments } } ∧
       exec (.trunkFragment (.character true v)) s =
         .next { s with receiver := .receiving [v], rx := { s.rx with fragments := bump s.rx.fragments } } ∧
       (taken.length = 3 → 32 < v.toNat → exec (.trunkFragment (.character false v)) s =
         .next { s with receiver := .hunting, rx := { s.rx with fragments := bump s.rx.fragments } }) ∧
       exec .trunkGap s =
         .next { s with receiver := .hunting, rx := { s.rx with fragments := bump s.rx.fragments } }) ∧
     (s.receiver = .hunting → exec (.trunkFragment .framingError) s = .next s) ∧
     ∀ marker : Bool, exec (.trunkFragment (.character marker v)) s = exec (.trunkCharacter marker v) s)

/-- A complete trunk frame is judged in the order of R12: the check, an invalid address, another station, kind
against address; a good one is handed to the block R13 names, and TRX is HUNTING afterwards (R10). The arrival of a
good frame is counted; in UP and RETRYING it does no more; in DOWN the trunk comes UP with its timeout count 0,
TRUNK_RECOVERED is signalled, a round opens at the oldest SENT entry with the timer started where entries are SENT,
and the Delivery Unit makes its choice (R12 step 5, R13, R150, R151). The model's own readings: the row dispatches a
frame that turns out good, and what TRX held before it counts no fragment (log 6); MGMT_BAD_REQUEST stands for any
request's payload (log 12); the oldest SENT number is the next number less the count of SENT entries (log 15). The
station address is 240 plus the strap value (R5), and every counter saturates (00, Counters; R14). -/
def Obligations.CompleteFrameJudged : Prop :=
  (∀ (s : State) (f : LineFrame),
     (f.checkAgrees = false → exec (.trunkFrameDiscard f) s =
       .next { s with receiver := .hunting, rx := { s.rx with checkFails := bump s.rx.checkFails } }) ∧
     (f.checkAgrees = true →
       ((f.address = 0 ∨ 248 ≤ f.address.toNat) ∨
         (f.address = s.station ∧ f.kind ≠ 0x51 ∧ f.kind ≠ 0x52) ∨
         (1 ≤ f.address.toNat ∧ f.address.toNat ≤ 239 ∧ f.kind ≠ 0x53) →
           exec (.trunkFrameDiscard f) s =
             .next { s with receiver := .hunting, rx := { s.rx with badAddresses := bump s.rx.badAddresses } }) ∧
       (240 ≤ f.address.toNat ∧ f.address.toNat ≤ 247 ∧ f.address ≠ s.station →
         exec (.trunkFrameDiscard f) s = .next { s with receiver := .hunting }) ∧
       (f.address = s.station ∧ f.kind = 0x51 →
         exec (.trunkFrameDiscard f) s = exec (.mgmtBadRequest f.third f.payload) s) ∧
       (f.address = s.station ∧ f.kind = 0x52 →
         exec (.trunkFrameDiscard f) s = exec (.ack f.third f.payload) s) ∧
       (1 ≤ f.address.toNat ∧ f.address.toNat ≤ 239 ∧ f.kind = 0x53 →
         exec (.trunkFrameDiscard f) s = exec (.relay f.address f.third f.payload) s))) ∧
  (∀ s : State,
     (s.du.trunk ≠ .down →
       s.arrived = { s with receiver := .hunting, rx := { s.rx with good := bump s.rx.good } }) ∧
     (s.du.trunk = .down →
       s.arrived = State.choice { s with
         receiver := .hunting
         rx := { s.rx with good := bump s.rx.good }
         eu := { s.eu with device := s.eu.device.raise 0x10 }
         du := { s.du with
           trunk := .up, timeoutCount := 0
           round := if s.sentCount = 0 then s.du.round else some s.oldestSeq
           timer := if s.sentCount = 0 then s.du.timer else some 0 } })) ∧
  (∀ s : State, s.station = 240#8 + BitVec.ofNat 8 s.strap.val) ∧
  ∀ c : Half, bump c = if c = 0xFFFF then c else c + 1

/-- Every row of the controller is its frame: the characters of the frame a well-formed row stands for, taken one
after another by a receiver that hunts, come to what the row's meaning does (R3, R8, R9, R10, R12, R13, R157,
Formats; that a frame's row is its completion is log 6, and that the two rows for faults carry any payload is log
12). The frame of each row: an ACK and a RELAY with their KIND, and a request as a MGMT_REQ with its kind, table and
parameters; the characters of a frame are its values, the address alone with marker 1; and a receiver takes them one
TRUNK_CHARACTER after another. -/
def Obligations.RowsAreTheirFrames : Prop :=
  (∀ (i : Instr) (s : State) (f : LineFrame), i.wf = true → i.trunkFrame s.station = some f → s.receiver = .hunting →
     exec i s = .next (s.receiveAll f.characters)) ∧
  (∀ (station tag a : Byte) (p : List Byte),
     Instr.trunkFrame station (.ack tag p) = some (LineFrame.sealed station 0x52 tag p) ∧
     Instr.trunkFrame station (.relay a tag p) = some (LineFrame.sealed a 0x53 tag p) ∧
     ∀ i q, Instr.request i = some (tag, q) → Instr.trunkFrame station i = some (LineFrame.sealed station 0x51 tag q)) ∧
  (∀ (tag key item x y : Byte) (rest : List Byte) (write : Bool),
     Instr.request (.mgmtBadRequest tag rest) = some (tag, rest) ∧
     Instr.request (.readDevice tag key item x) = some (tag, [0x01, 0x01, key, item, x]) ∧
     Instr.request (.readBranch tag key item x) = some (tag, [0x01, 0x02, key, item, x]) ∧
     Instr.request (.readNode tag key item x) = some (tag, [0x01, 0x03, key, item, x]) ∧
     Instr.request (.readSched tag key item x) = some (tag, [0x01, 0x04, key, item, x]) ∧
     Instr.request (.readQueue tag key item x) = some (tag, [0x01, 0x05, key, item, x]) ∧
     Instr.request (.readFlags tag key item x) = some (tag, [0x01, 0x06, key, item, x]) ∧
     Instr.request (.readCounters tag key item x) = some (tag, [0x01, 0x07, key, item, x]) ∧
     Instr.request (.readPool tag key item x) = some (tag, [0x01, 0x08, key, item, x]) ∧
     Instr.request (.writeDevice tag key item rest) = some (tag, 0x02 :: 0x01 :: key :: item :: rest) ∧
     Instr.request (.writeBranch tag key item rest) = some (tag, 0x02 :: 0x02 :: key :: item :: rest) ∧
     Instr.request (.writeNode tag key item rest) = some (tag, 0x02 :: 0x03 :: key :: item :: rest) ∧
     Instr.request (.writeSchedEntry tag key item rest) = some (tag, 0x02 :: 0x04 :: key :: item :: rest) ∧
     Instr.request (.writeSchedHeader tag key rest) = some (tag, 0x02 :: 0x04 :: key :: 0xFF :: rest) ∧
     Instr.request (.writeReadOnlyTable tag .queue key item rest) = some (tag, 0x02 :: 0x05 :: key :: item :: rest) ∧
     Instr.request (.writeReadOnlyTable tag .flags key item rest) = some (tag, 0x02 :: 0x06 :: key :: item :: rest) ∧
     Instr.request (.writeReadOnlyTable tag .counters key item rest) = some (tag, 0x02 :: 0x07 :: key :: item :: rest) ∧
     Instr.request (.writeReadOnlyTable tag .pool key item rest) = some (tag, 0x02 :: 0x08 :: key :: item :: rest) ∧
     Instr.request (.deleteNode tag x) = some (tag, [0x03, x]) ∧
     Instr.request (.resetHealth tag x) = some (tag, [0x04, x]) ∧
     Instr.request (.purge tag x) = some (tag, [0x05, x]) ∧
     Instr.request (.swap tag x) = some (tag, [0x06, x]) ∧
     Instr.request (.setMode tag x y) = some (tag, [0x07, x, y]) ∧
     Instr.request (.clearFlags tag x y) = some (tag, [0x08, x, y]) ∧
     Instr.request (.clearCounters tag x) = some (tag, [0x09, x]) ∧
     Instr.request (.restart tag) = some (tag, [0x0A]) ∧
     Instr.request (.mgmtBadTable tag write x key item rest) =
       some (tag, (if write then 0x02 else 0x01) :: x :: key :: item :: rest)) ∧
  (∀ f : LineFrame,
     f.values = [f.address, f.kind, f.third, BitVec.ofNat 8 f.payload.length] ++ f.payload ++ [hi f.check, lo f.check] ∧
     f.characters = (true, f.address) :: (f.values.drop 1).map fun v => (false, v)) ∧
  ∀ (s : State) (marker : Bool) (v : Byte) (rest : List (Bool × Byte)),
    s.receiveAll [] = s ∧
    ∃ t, exec (.trunkCharacter marker v) s = .next t ∧ s.receiveAll ((marker, v) :: rest) = t.receiveAll rest

/-! ### Delivery -/

/-- An acknowledgement judged against the SENT list, as the arrival of its frame left it (R142 to R145). The SENT numbers
are `n` numbers counted up from `S`, the oldest, to the one before the next sequence number. -/
def Obligations.AckJudged : Prop :=
  ∀ (s : State) (next : Byte) (payload : List Byte) (n : Nat) (S : BitVec 4),
    n ≤ 8 → s.arrived.sentCount = n → s.arrived.sentSeqs.Perm (seqsFrom S n) →
    s.arrived.du.nextSeq = S + BitVec.ofNat 4 n →
    let u := s.arrived
    let stale : State := { u with du := { u.du with staleAcks := bump u.du.staleAcks } }
    let d := (next.toNat + 16 - S.toNat) % 16
    (15 < next.toNat ∨ payload ≠ [] → exec (.ack next payload) s = .next stale.choice) ∧
    (next.toNat ≤ 15 → payload = [] →
      (n = 0 ∨ d = 0 → exec (.ack next payload) s = .next u.choice) ∧
      (0 < n → n < d → exec (.ack next payload) s = .next stale.choice) ∧
      (1 ≤ d → d ≤ n → exec (.ack next payload) s = .next (State.choice { u with
        pool := u.pool.filter fun e =>
          match e.state with
          | .queued => true
          | .sent q => decide (d ≤ (q.toNat + 16 - S.toNat) % 16)
        du := { u.du with
          timeoutCount := 0
          trunk := if u.du.trunk = .retrying then .up else u.du.trunk
          timer := if d = n then none else some 0
          round := u.du.round.bind fun p =>
            if d = n then none
            else if (p.toNat + 16 - S.toNat) % 16 < d then some (S + BitVec.ofNat 4 d)
            else some p } })))

/-- An expiry of the retransmit timer (R147, R148): below the fail limit a round opens at the oldest SENT entry, the
timer restarts and the trunk is RETRYING; at or above it the trunk is DOWN, the timer stops and the round closes. The
number of the oldest SENT entry is the next number less the count of SENT entries, which is the model's reading (log
15). -/
def Obligations.RetransmitTimerExpires : Prop :=
  (∀ s : State,
     (s.du.timer ≠ none → s.du.timeoutCount + 1 < s.du.failLimit →
       exec .retransmitTimerExpiry s = .next (State.choice { s with du := { s.du with
         timeoutCount := s.du.timeoutCount + 1, round := some s.oldestSeq, timer := some 0, trunk := .retrying } })) ∧
     (s.du.timer ≠ none → s.du.failLimit ≤ s.du.timeoutCount + 1 →
       exec .retransmitTimerExpiry s = .next { s with du := { s.du with
         timeoutCount := s.du.timeoutCount + 1, round := none, timer := none, trunk := .down } })) ∧
  ∀ s : State, s.oldestSeq = s.du.nextSeq - BitVec.ofNat 4 s.sentCount

/-- The Delivery Unit makes no choice while it sends. TRUNK_FRAME_END frees the transmitter, and it chooses (R137,
R138): nothing while DOWN; a resend where a round is open; nothing at a full window; then the oldest response, an
ALERT where a group is pending and there is room, the oldest result, the oldest report (R139). A group is pending
where any of the five is (R178). -/
def Obligations.ArbiterOrder : Prop :=
  (∀ s : State,
     s.du.transmitter ≠ none →
       s.choice = s ∧
       let u : State := { s with du := { s.du with transmitter := none } }
       exec .trunkFrameEnd s = .next u.choice ∧
       let waits (c : UplinkClass) : Prop := ∃ e ∈ s.pool, e.state = .queued ∧ e.cls = c
       (s.du.trunk = .down → exec .trunkFrameEnd s = .next u) ∧
       (s.du.trunk ≠ .down →
         (∀ p, s.du.round = some p → exec .trunkFrameEnd s = .next (u.resend p)) ∧
         (s.du.round = none →
           (s.du.window ≤ s.sentCount → exec .trunkFrameEnd s = .next u) ∧
           (s.sentCount < s.du.window →
             (waits .mgmtResp → ∃ t, u.firstTransmission .mgmtResp = some t ∧ exec .trunkFrameEnd s = .next t) ∧
             (¬ waits .mgmtResp →
               (s.eu.anyPending = true → s.occupancy < 48 →
                 ∃ t, u.sendAlert = some t ∧ exec .trunkFrameEnd s = .next t) ∧
               (s.eu.anyPending = false ∨ 48 ≤ s.occupancy →
                 (waits .result → ∃ t, u.firstTransmission .result = some t ∧ exec .trunkFrameEnd s = .next t) ∧
                 (¬ waits .result →
                   (waits .report → ∃ t, u.firstTransmission .report = some t ∧ exec .trunkFrameEnd s = .next t) ∧
                   (¬ waits .report → exec .trunkFrameEnd s = .next u)))))))) ∧
  ∀ eu : EventUnit,
    (eu.anyPending = true ↔ ∃ g, (eu.group g).pending = true) ∧
    (∀ b : Branch, eu.group (.branch b) = eu.groups.get b) ∧ eu.group .device = eu.device

/-- The frames the Delivery Unit sends. A first transmission takes the oldest QUEUED entry of its class, which keeps
its place, takes the next sequence number and becomes SENT; its frame carries the station address, the KIND of the
class, the number and the payload; the timer starts where nothing was SENT (R116, R137, R140, R146). A resend keeps
number and payload, moves the resend point, and closes the round as the newest is resent (R149). The payload of an
ALERT is the restart cause, the set of the pending groups, and for each of them in ascending number its flags and its
last-node byte, 0 for group 4; taking it clears every pending mark and nothing else (R131, R179). With a group
pending and room in the pool an ALERT is admitted with it, SENT at once and on the trunk; with none pending, or no
room, there is none (R125, R139). The KIND of each class, the codes of the restart cause, and the number of SENT
entries (R133, R191). -/
def Obligations.Transmissions : Prop :=
  ((∀ (u : State) (pre post : List Entry) (e : Entry), u.pool = pre ++ e :: post → e.state = .queued →
     (∀ x ∈ pre, ¬ (x.state = .queued ∧ x.cls = e.cls)) →
     u.firstTransmission e.cls = some { u with
       pool := pre ++ { e with state := .sent u.du.nextSeq } :: post
       du := { u.du with
         nextSeq := u.du.nextSeq + 1
         timer := if u.sentCount = 0 then some 0 else u.du.timer
         transmitter := some (LineFrame.sealed u.station e.cls.kind (u.du.nextSeq.setWidth 8) e.payload)
         framesSent := bump u.du.framesSent } }) ∧
   (∀ (u : State) (pre post : List Entry) (e : Entry) (q : BitVec 4), u.pool = pre ++ e :: post → e.state = .sent q →
     (∀ x ∈ pre, x.state ≠ .sent q) →
     u.resend q = { u with du := { u.du with
       round := if q + 1 = u.du.nextSeq then none else some (q + 1)
       transmitter := some (LineFrame.sealed u.station e.cls.kind (q.setWidth 8) e.payload)
       framesSent := bump u.du.framesSent
       retransmissions := bump u.du.retransmissions } })) ∧
  (∀ eu : EventUnit, ∃ mask : Byte,
     (let carried (g : FlagGroup) (node : Byte) : List Byte := if g.pending then [g.flags, node] else []
      eu.snapshot = eu.cause.code :: mask ::
       (carried eu.groups.b0 (BitVec.ofNat 8 eu.lastNode.b0) ++ carried eu.groups.b1 (BitVec.ofNat 8 eu.lastNode.b1) ++
         carried eu.groups.b2 (BitVec.ofNat 8 eu.lastNode.b2) ++ carried eu.groups.b3 (BitVec.ofNat 8 eu.lastNode.b3) ++
         carried eu.device 0)) ∧
     (∀ i, mask.getLsbD i = ([eu.groups.b0.pending, eu.groups.b1.pending, eu.groups.b2.pending, eu.groups.b3.pending,
       eu.device.pending].getD i false)) ∧
     eu.told = { eu with
       groups := ⟨{ eu.groups.b0 with pending := false }, { eu.groups.b1 with pending := false },
                  { eu.groups.b2 with pending := false }, { eu.groups.b3 with pending := false }⟩
       device := { eu.device with pending := false } }) ∧
  (∀ u : State,
     (u.eu.anyPending = false ∨ 48 ≤ u.occupancy → u.sendAlert = none) ∧
     (u.eu.anyPending = true → u.occupancy < 48 → u.queuedCount .alert = 0 →
       u.sendAlert = some { u with
         eu := u.eu.told
         pool := u.pool ++ [{ cls := .alert, payload := u.eu.snapshot, state := .sent u.du.nextSeq }]
         du := { u.du with
           nextSeq := u.du.nextSeq + 1
           timer := if u.sentCount = 0 then some 0 else u.du.timer
           transmitter := some (LineFrame.sealed u.station 0x62 (u.du.nextSeq.setWidth 8) u.eu.snapshot)
           framesSent := bump u.du.framesSent } })) ∧
  [UplinkClass.mgmtResp, .alert, .result, .report].map UplinkClass.kind = [0x61, 0x62, 0x63, 0x64] ∧
  [RestartCause.power, .pin, .warm].map RestartCause.code = [0x01, 0x02, 0x03] ∧
  ∀ s : State, s.sentCount = (s.pool.filter fun e => e.state != .queued).length

/-! ### Relays -/

/-- A relay is decided by the first check of R92 that applies: dropped with RELAY_DROPPED and its count (R93),
answered by a notice (R94), or accepted with a credit, an entry at the tail of DQb and the counter, upon which an
idle ON_DEMAND branch starts (R95, R108). -/
def Obligations.RelayDecided : Prop :=
  ∀ (s : State) (a tag : Byte) (p : List Byte),
    let u := s.arrived
    let notice (status : Byte) : State :=
      { u with pool := u.pool ++ [{ cls := .result, payload := [tag, a, status, 0], state := .queued }] }
    (48 ≤ u.occupancy → exec (.relay a tag p) s = .next (State.choice { u with
      eu := { u.eu with device := u.eu.device.raise 0x04 }, relaysDropped := bump u.relaysDropped })) ∧
    (u.occupancy < 48 →
      (24 < p.length → exec (.relay a tag p) s = .next (notice 0x0A).choice) ∧
      (p.length ≤ 24 →
        (u.node? a.toNat = none → exec (.relay a tag p) s = .next (notice 0x08).choice) ∧
        ∀ r, u.node? a.toNat = some r →
          let B := u.br r.branch
          (B.current = .off ∨ B.requested = .off → exec (.relay a tag p) s = .next (notice 0x07).choice) ∧
          (B.current ≠ .off → B.requested ≠ .off →
            (B.sup.state ≠ .normal → B.sup.state ≠ .lowPending →
              exec (.relay a tag p) s = .next (notice 0x04).choice) ∧
            (B.sup.state = .normal ∨ B.sup.state = .lowPending →
              (8 ≤ B.queue.length → exec (.relay a tag p) s = .next (notice 0x0B).choice) ∧
              (B.queue.length < 8 → exec (.relay a tag p) s = .next (State.choice (State.kick
                { u with
                  credits := u.credits + 1
                  branches := u.branches.set r.branch { B with
                    queue := B.queue ++
                      [{ tag := tag, node := a.toNat, payload := p, age := 0, lifetime := r.lifetime }]
                    counters := { B.counters with commandsAccepted := bump B.counters.commandsAccepted } } }
                r.branch)))))))

/-! ### Reads -/

/-- READ DEVICE, READ POOL, READ BRANCH, READ FLAGS and READ COUNTERS: every key, item and selector, and the data in
the order of Formats (R133, R160, R162, R163, R164). A request with an item answers BAD_INDEX, and one with a
selector BAD_VALUE. The codes of every named value, and a field of two bytes high byte first (R191). -/
def Obligations.ReadPlainTables : Prop :=
  (∀ (s : State) (tag key item selector : Byte),
     let u := s.arrived
     let answer (data : List Byte) : State :=
       if key ≠ 0 then u.answered tag .badIndex [] else u.answeredPlain tag item selector data
     exec (.readDevice tag key item selector) s = .next (answer
       [0x5A, 0x31, 0x48, 0x04, 0x03, 240#8 + BitVec.ofNat 8 u.strap.val, BitVec.ofNat 8 u.trunkRate.val, u.eu.cause.code,
        BitVec.ofNat 8 u.du.window, BitVec.ofNat 8 u.du.timeout, BitVec.ofNat 8 u.du.failLimit,
        u.eu.groups.b0.enables, u.eu.groups.b1.enables, u.eu.groups.b2.enables, u.eu.groups.b3.enables,
        u.eu.device.enables]) ∧
     exec (.readPool tag key item selector) s = .next (answer
       [BitVec.ofNat 8 (u.queuedCount .mgmtResp), BitVec.ofNat 8 (u.queuedCount .alert),
        BitVec.ofNat 8 (u.queuedCount .result), BitVec.ofNat 8 (u.queuedCount .report), BitVec.ofNat 8 u.sentCount,
        BitVec.ofNat 8 u.credits, u.du.nextSeq.setWidth 8, u.du.trunk.code, BitVec.ofNat 8 u.du.timeoutCount])) ∧
  (∀ (s : State) (tag item selector : Byte),
     let u := s.arrived
     (∀ key : Byte, 3 < key.toNat →
       exec (.readBranch tag key item selector) s = .next (u.answered tag .badIndex [])) ∧
     (∀ key : Byte, 4 < key.toNat →
       exec (.readFlags tag key item selector) s = .next (u.answered tag .badIndex []) ∧
       exec (.readCounters tag key item selector) s = .next (u.answered tag .badIndex [])) ∧
     (∀ b : Branch,
       exec (.readBranch tag (BitVec.ofNat 8 b.toNat) item selector) s = .next (u.answeredPlain tag item selector
         [(u.br b).rate.code, if (u.br b).sup.enabled then 1 else 0, BitVec.ofNat 8 (u.br b).sup.level,
          BitVec.ofNat 8 (u.br b).sup.qualifyTime, BitVec.ofNat 8 (u.br b).sup.restoreTime,
          BitVec.ofNat 8 (u.br b).odWindow, BitVec.ofNat 8 (u.br b).odRetries, (u.br b).current.code,
          (u.br b).requested.code, if (u.br b).supplyWait then 1 else 0, (u.br b).sup.state.code,
          (u.br b).activeBank.code, if (u.br b).swapPending then 1 else 0, hi (u.br b).cycle.number,
          lo (u.br b).cycle.number]) ∧
       exec (.readFlags tag (BitVec.ofNat 8 b.toNat) item selector) s = .next (u.answeredPlain tag item selector
         [(u.eu.groups.get b).flags, (u.eu.groups.get b).enables, if (u.eu.groups.get b).pending then 1 else 0,
          BitVec.ofNat 8 (u.eu.lastNode.get b)]) ∧
       exec (.readCounters tag (BitVec.ofNat 8 b.toNat) item selector) s = .next (u.answeredPlain tag item selector
         (let k := (u.br b).counters
          [k.slotsRun, k.slotsSkipped, k.pollOk, k.commandOk, k.noReply, k.lineErrors, k.retries, k.orphans, k.cycles,
           k.overruns, k.suspended, k.commandsAccepted, k.glitches].flatMap fun v => [hi v, lo v]))) ∧
     exec (.readFlags tag 4 item selector) s = .next (u.answeredPlain tag item selector
       [u.eu.device.flags, u.eu.device.enables, if u.eu.device.pending then 1 else 0, 0]) ∧
     exec (.readCounters tag 4 item selector) s = .next (u.answeredPlain tag item selector
       ([u.rx.good, u.rx.checkFails, u.rx.fragments, u.rx.badAddresses, u.du.framesSent, u.du.retransmissions,
         u.du.staleAcks, u.droppedReports, u.relaysDropped, u.droppedResponses].flatMap fun v => [hi v, lo v]))) ∧
  (∀ (u : State) (tag item selector : Byte) (data : List Byte), u.answeredPlain tag item selector data =
     if item ≠ 0 then u.answered tag .badIndex []
     else if selector ≠ 0 then u.answered tag .badValue [] else u.answered tag .ok data) ∧
  [Branch.b0, .b1, .b2, .b3].map Branch.toNat = [0, 1, 2, 3] ∧
  [RestartCause.power, .pin, .warm].map RestartCause.code = [0x01, 0x02, 0x03] ∧
  [TrunkState.down, .up, .retrying].map TrunkState.code = [0x00, 0x01, 0x02] ∧
  [LineRate.r9600, .r19200, .r38400, .r57600, .r115200].map LineRate.code = [0x00, 0x01, 0x02, 0x03, 0x04] ∧
  [Mode.off, .scheduled, .onDemand].map Mode.code = [0x00, 0x01, 0x02] ∧
  [SupplyState.disabled, .restorePending, .normal, .lowPending, .fault].map SupplyState.code =
    [0x00, 0x01, 0x02, 0x03, 0x04] ∧
  [BankName.a, .b].map BankName.code = [0x00, 0x01] ∧
  ∀ v : Half, v.toNat = 256 * (hi v).toNat + (lo v).toNat

/-- READ NODE: the key and item by the "next" option, the selector, the record found by address or the lowest above
it, and the record part or the value part (R20, R160, R161). The order of the key's range against the selector is log
11. The codes of the report modes and the health states are those of R191. -/
def Obligations.ReadNode : Prop :=
  (∀ (s : State) (tag key item selector : Byte), (s.nodes.Pairwise fun q r => q.address < r.address) →
     let u := s.arrived
     let next := selector.getLsbD 1
     let outside : Prop := (key = 0 ∧ next = false) ∨ 239 < key.toNat ∨ item ≠ 0
     let found (r : NodeRecord) : Prop :=
       r ∈ u.nodes ∧
         if next then key.toNat < r.address ∧ ∀ q ∈ u.nodes, key.toNat < q.address → r.address ≤ q.address
         else r.address = key.toNat
     (outside → exec (.readNode tag key item selector) s = .next (u.answered tag .badIndex [])) ∧
     (¬ outside → 3 < selector.toNat →
       exec (.readNode tag key item selector) s = .next (u.answered tag .badValue [])) ∧
     (¬ outside → selector.toNat ≤ 3 →
       ((∀ r, ¬ found r) → exec (.readNode tag key item selector) s = .next (u.answered tag .noEntry [])) ∧
       ∀ r, found r →
         let last : List Byte :=
           match r.lastValue with
           | none => [0, 0]
           | some v => [1, BitVec.ofNat 8 v.length]
         exec (.readNode tag key item selector) s = .next (u.answered tag .ok
           (if selector.getLsbD 0 then BitVec.ofNat 8 r.address :: last ++ r.lastValue.getD []
            else
             [BitVec.ofNat 8 r.address, BitVec.ofNat 8 r.branch.toNat, if r.active then 1 else 0,
              BitVec.ofNat 8 r.threshold, BitVec.ofNat 8 r.divisor, r.reportMode.code, BitVec.ofNat 8 r.reportPeriod,
              BitVec.ofNat 8 r.compareLength, BitVec.ofNat 8 r.lifetime, r.health.code, BitVec.ofNat 8 r.misses,
              BitVec.ofNat 8 r.countdown, BitVec.ofNat 8 r.pollsSince, if r.toggle then 1 else 0] ++ last ++
             [hi r.okReplies, lo r.okReplies, hi r.totalMisses, lo r.totalMisses])))) ∧
  [ReportMode.every, .onChange, .periodic].map ReportMode.code = [0x00, 0x01, 0x02] ∧
  [Health.inactive, .online, .suspect, .offline].map Health.code = [0x00, 0x01, 0x02, 0x03]

/-- READ SCHED: selectors 0 and 1 read an entry, 2 and 3 the header, of the active and the standby bank, whatever the
length and whether or not a swap is pending; and READ QUEUE (R46, R99, R160, R191). An item is judged before the
selector (log 11). -/
def Obligations.ReadSchedAndQueue : Prop :=
  ∀ (s : State) (tag key item selector : Byte),
    let u := s.arrived
    (3 < key.toNat →
      exec (.readSched tag key item selector) s = .next (u.answered tag .badIndex []) ∧
      exec (.readQueue tag key item selector) s = .next (u.answered tag .badIndex [])) ∧
    ∀ b : Branch, key = BitVec.ofNat 8 b.toNat →
      let active := if (u.br b).activeBank = .a then (u.br b).bankA else (u.br b).bankB
      let standby := if (u.br b).activeBank = .a then (u.br b).bankB else (u.br b).bankA
      let bank := if selector = 0 ∨ selector = 2 then active else standby
      (31 < item.toNat ∨ (item ≠ 0 ∧ (selector = 2 ∨ selector = 3)) →
        exec (.readSched tag key item selector) s = .next (u.answered tag .badIndex [])) ∧
      (item.toNat ≤ 31 → 3 < selector.toNat →
        exec (.readSched tag key item selector) s = .next (u.answered tag .badValue [])) ∧
      (∀ h : item.toNat < 32, selector = 0 ∨ selector = 1 →
        exec (.readSched tag key item selector) s = .next (u.answered tag .ok
          (match bank.entries[item.toNat] with
           | .poll node window retries =>
             [1, BitVec.ofNat 8 node, BitVec.ofNat 8 window, BitVec.ofNat 8 retries, 0, 0]
           | .sync => [2, 0, 0, 0, 0, 0]
           | .gap n => [3, 0, 0, 0, hi (BitVec.ofNat 16 n), lo (BitVec.ofNat 16 n)]))) ∧
      (item = 0 → selector = 2 ∨ selector = 3 →
        exec (.readSched tag key item selector) s = .next (u.answered tag .ok
          [BitVec.ofNat 8 bank.length, hi (BitVec.ofNat 16 bank.period), lo (BitVec.ofNat 16 bank.period)])) ∧
      (7 < item.toNat → exec (.readQueue tag key item selector) s = .next (u.answered tag .badIndex [])) ∧
      (item.toNat ≤ 7 → selector ≠ 0 →
        exec (.readQueue tag key item selector) s = .next (u.answered tag .badValue [])) ∧
      (item.toNat ≤ 7 → selector = 0 →
        ((u.br b).queue.length ≤ item.toNat →
          exec (.readQueue tag key item selector) s = .next (u.answered tag .noEntry [])) ∧
        ∀ c, (u.br b).queue[item.toNat]? = some c →
          exec (.readQueue tag key item selector) s = .next (u.answered tag .ok
            [c.tag, BitVec.ofNat 8 c.node, BitVec.ofNat 8 c.age, BitVec.ofNat 8 c.lifetime]))

/-- An answer (R121, R130, R158): with room and fewer than four responses QUEUED the response joins the pool's end,
and otherwise it is dropped with MGMT_DROPPED and counted; no tag is held, and the Delivery Unit then chooses. The
codes of the statuses (R191); the occupancy is the entries held and the credits (R119); and a request in hand is one
whose frame has arrived and whose tag is held (R157). -/
def Obligations.AnswersAreOffered : Prop :=
  (∀ (u : State) (tag : Byte) (status : Status) (data : List Byte),
     (u.occupancy < 48 → u.queuedCount .mgmtResp < 4 → u.answered tag status data = State.choice { u with
       muTag := none
       pool := u.pool ++ [{ cls := .mgmtResp, payload := tag :: status.code :: data, state := .queued }] }) ∧
     (48 ≤ u.occupancy ∨ 4 ≤ u.queuedCount .mgmtResp → u.answered tag status data = State.choice { u with
       muTag := none
       eu := { u.eu with device := u.eu.device.raise 0x08 }
       droppedResponses := bump u.droppedResponses })) ∧
  [Status.ok, .badRequest, .badTable, .badIndex, .badValue, .readOnly, .busy, .noEntry, .tableFull].map Status.code =
    [0x00, 0x01, 0x02, 0x03, 0x04, 0x05, 0x06, 0x07, 0x08] ∧
  ∀ (s : State) (c : UplinkClass) (tag : Byte),
    s.occupancy = s.pool.length + s.credits ∧
    s.queuedCount c = (s.pool.filter fun e => e.state == .queued && e.cls == c).length ∧
    s.inHand tag = { s.arrived with muTag := some tag }

/-- A READ reaches the trunk receiver and its good frames, the tag in hand, the pool, the Delivery Unit, the dropped
responses and the flags of group 4 that its arrival and its answer raise, with the pending marks, and nothing else
(R160): every table and every branch is left as it was. And what the Delivery Unit's own commands leave unchanged:
the node table, the branches, the credits, every setting, and every counter but those of delivery and the good
frames. -/
def Obligations.ReadsAndDeliveryFrame : Prop :=
  (∀ (s t : State) (tag key item selector : Byte) (c : Instr),
     c ∈ [.readDevice tag key item selector, .readBranch tag key item selector, .readNode tag key item selector,
       .readSched tag key item selector, .readQueue tag key item selector, .readFlags tag key item selector,
       .readCounters tag key item selector, .readPool tag key item selector] →
     exec c s = .next t →
       t.nodes = s.nodes ∧ t.branches = s.branches ∧ t.credits = s.credits ∧ t.strap = s.strap ∧
       t.trunkRate = s.trunkRate ∧ t.du.window = s.du.window ∧ t.du.timeout = s.du.timeout ∧
       t.du.failLimit = s.du.failLimit ∧ t.droppedReports = s.droppedReports ∧ t.relaysDropped = s.relaysDropped ∧
       t.eu.cause = s.eu.cause ∧ t.eu.lastNode = s.eu.lastNode ∧ t.eu.device.enables = s.eu.device.enables ∧
       (∀ b : Branch, (t.eu.groups.get b).flags = (s.eu.groups.get b).flags ∧
         (t.eu.groups.get b).enables = (s.eu.groups.get b).enables) ∧
       t.rx.checkFails = s.rx.checkFails ∧ t.rx.fragments = s.rx.fragments ∧ t.rx.badAddresses = s.rx.badAddresses) ∧
  (∀ (c : Instr) (s t : State) (next : Byte) (payload : List Byte),
     c ∈ [.ack next payload, .trunkFrameEnd, .retransmitTimerExpiry] → exec c s = .next t →
       t.nodes = s.nodes ∧ t.branches = s.branches ∧ t.credits = s.credits ∧ t.strap = s.strap ∧
       t.trunkRate = s.trunkRate ∧ t.muTag = s.muTag ∧ t.du.window = s.du.window ∧ t.du.timeout = s.du.timeout ∧
       t.du.failLimit = s.du.failLimit ∧ t.droppedReports = s.droppedReports ∧ t.relaysDropped = s.relaysDropped ∧
       t.droppedResponses = s.droppedResponses ∧ t.rx.checkFails = s.rx.checkFails ∧
       t.rx.fragments = s.rx.fragments ∧ t.rx.badAddresses = s.rx.badAddresses ∧
       t.eu.cause = s.eu.cause ∧ t.eu.lastNode = s.eu.lastNode ∧
       ∀ g, (t.eu.group g).enables = (s.eu.group g).enables)

/-! ### Writes -/

/-- The walk of field items takes each code with the width of Formats and finds exactly the items a payload is made
of, up to a code listed for no table; a payload that ends inside an item is a fault of form. A WRITE with that fault
is answered BAD_REQUEST, and one that names a table or a field that cannot be written READ_ONLY, before anything else
is judged and with nothing changed (R159, R165, R192). A WRITE_READ_ONLY_TABLE is always one of the two. -/
def Obligations.WriteFormJudged : Prop :=
  ((∀ code, fieldWidth code = some .counted ↔ code = 0x15) ∧
   (∀ code, fieldWidth code = some (.bytes 2) ↔ code ∈ [0x16, 0x17, 0x24, 0x29, 0x3E, 0x48, 0x49]) ∧
   (∀ code, fieldWidth code = some (.bytes 1) ↔
     (0x01 ≤ code ∧ code ≤ 0x08) ∨ (0x10 ≤ code ∧ code ≤ 0x14) ∨ (0x20 ≤ code ∧ code ≤ 0x23) ∨ code = 0x28 ∨
     (0x30 ≤ code ∧ code ≤ 0x36) ∨ (0x38 ≤ code ∧ code ≤ 0x3D) ∨ (0x40 ≤ code ∧ code ≤ 0x47) ∨
     (0x4A ≤ code ∧ code ≤ 0x4D)) ∧
   ∀ items : List FieldItem,
     (∀ i ∈ items, i.code < 256 ∧
       ((∃ k, fieldWidth i.code = some (.bytes k) ∧ i.value.length = k) ∨
         (fieldWidth i.code = some .counted ∧ ∃ len rest, i.value = len :: rest ∧ rest.length = len.toNat))) →
     let bytes := items.flatMap fun i => BitVec.ofNat 8 i.code :: i.value
     walk bytes = some { items := items, unlisted := false } ∧
     ∀ (code : Byte) (rest : List Byte),
       (fieldWidth code.toNat = none → walk (bytes ++ code :: rest) = some { items := items, unlisted := true }) ∧
       (∀ k, fieldWidth code.toNat = some (.bytes k) → rest.length < k → walk (bytes ++ code :: rest) = none) ∧
       (fieldWidth code.toNat = some .counted →
         (rest = [] ∨ ∃ len short, rest = len :: short ∧ short.length < len.toNat) →
           walk (bytes ++ code :: rest) = none)) ∧
  (∀ (s : State) (tag key item : Byte) (fields : List Byte) (b : ReadOnlyTable),
     let u := s.arrived
     (walk fields = none →
       ∀ c ∈ [Instr.writeDevice tag key item fields, .writeBranch tag key item fields, .writeNode tag key item fields,
         .writeSchedEntry tag key item fields, .writeSchedHeader tag key fields,
         .writeReadOnlyTable tag b key item fields],
         exec c s = .next (u.answered tag .badRequest [])) ∧
     ∀ w, walk fields = some w →
       exec (.writeReadOnlyTable tag b key item fields) s = .next (u.answered tag .readOnly []) ∧
       ((∃ i ∈ w.items, 0x48 ≤ i.code ∧ i.code ≤ 0x4D) →
         exec (.writeDevice tag key item fields) s = .next (u.answered tag .readOnly [])) ∧
       ((∃ i ∈ w.items, 0x38 ≤ i.code ∧ i.code ≤ 0x3E) →
         exec (.writeBranch tag key item fields) s = .next (u.answered tag .readOnly [])) ∧
       ((∃ i ∈ w.items, 0x10 ≤ i.code ∧ i.code ≤ 0x17) →
         exec (.writeNode tag key item fields) s = .next (u.answered tag .readOnly [])))

/-- What a field item comes to in a write of its table. A field not yet named takes its value where that is in range,
and every other field stays as it was; out of range it is refused. A field named before is refused whatever its value
and whatever came between, and so is a code of another table (R18, R41, R42, R165, R166, R167, R192, Formats). The
items are gathered one after another onto a write that carries nothing; one refused refuses the write, and so does a
code listed for no table (R165, R192). The entry of an entry write: a kind with every field of that kind in its range
and no other. The codes of the branches and the line rates, and the rates in bit/s, are those of R6 and Formats. -/
def Obligations.FieldRanges : Prop :=
  ((∀ (w : NodeWrite) (v : Byte),
     (w.branch = none → w.add ⟨0x01, [v]⟩ = (Branch.ofNat? v.toNat).map (fun x => { w with branch := some x })) ∧
     (w.active = none → w.add ⟨0x02, [v]⟩ = (if v = 0 then some { w with active := some false }
       else if v = 1 then some { w with active := some true } else none)) ∧
     (w.threshold = none → w.add ⟨0x03, [v]⟩ = (if 1 ≤ v.toNat ∧ v.toNat ≤ 15 then
       some { w with threshold := some v.toNat } else none)) ∧
     (w.divisor = none → w.add ⟨0x04, [v]⟩ = (if v ≠ 0 then some { w with divisor := some v.toNat } else none)) ∧
     (w.reportMode = none → w.add ⟨0x05, [v]⟩ = (if v = 0 then some { w with reportMode := some .every }
       else if v = 1 then some { w with reportMode := some .onChange }
       else if v = 2 then some { w with reportMode := some .periodic } else none)) ∧
     (w.reportPeriod = none →
       w.add ⟨0x06, [v]⟩ = (if v ≠ 0 then some { w with reportPeriod := some v.toNat } else none)) ∧
     (w.compareLength = none →
       w.add ⟨0x07, [v]⟩ = (if v.toNat ≤ 24 then some { w with compareLength := some v.toNat } else none)) ∧
     (w.lifetime = none → w.add ⟨0x08, [v]⟩ = (if v ≠ 0 then some { w with lifetime := some v.toNat } else none))) ∧
   (∀ (w : NodeWrite) (value : List Byte),
     (w.branch ≠ none → w.add ⟨0x01, value⟩ = none) ∧ (w.active ≠ none → w.add ⟨0x02, value⟩ = none) ∧
     (w.threshold ≠ none → w.add ⟨0x03, value⟩ = none) ∧ (w.divisor ≠ none → w.add ⟨0x04, value⟩ = none) ∧
     (w.reportMode ≠ none → w.add ⟨0x05, value⟩ = none) ∧ (w.reportPeriod ≠ none → w.add ⟨0x06, value⟩ = none) ∧
     (w.compareLength ≠ none → w.add ⟨0x07, value⟩ = none) ∧ (w.lifetime ≠ none → w.add ⟨0x08, value⟩ = none) ∧
     ∀ code, code = 0 ∨ 9 ≤ code → w.add ⟨code, value⟩ = none)) ∧
  ((∀ (w : BranchWrite) (v : Byte),
     (w.rate = none → w.add ⟨0x30, [v]⟩ = (LineRate.ofNat? v.toNat).map (fun x => { w with rate := some x })) ∧
     (w.enabled = none → w.add ⟨0x31, [v]⟩ = (if v = 0 then some { w with enabled := some false }
       else if v = 1 then some { w with enabled := some true } else none)) ∧
     (w.level = none → w.add ⟨0x32, [v]⟩ = (if v.toNat ≤ 7 then some { w with level := some v.toNat } else none)) ∧
     (w.qualifyTime = none →
       w.add ⟨0x33, [v]⟩ = (if v ≠ 0 then some { w with qualifyTime := some v.toNat } else none)) ∧
     (w.restoreTime = none →
       w.add ⟨0x34, [v]⟩ = (if v ≠ 0 then some { w with restoreTime := some v.toNat } else none)) ∧
     (w.odWindow = none →
       w.add ⟨0x35, [v]⟩ = (if 2 ≤ v.toNat then some { w with odWindow := some v.toNat } else none)) ∧
     (w.odRetries = none →
       w.add ⟨0x36, [v]⟩ = (if v.toNat ≤ 3 then some { w with odRetries := some v.toNat } else none))) ∧
   (∀ (w : BranchWrite) (value : List Byte),
     (w.rate ≠ none → w.add ⟨0x30, value⟩ = none) ∧ (w.enabled ≠ none → w.add ⟨0x31, value⟩ = none) ∧
     (w.level ≠ none → w.add ⟨0x32, value⟩ = none) ∧ (w.qualifyTime ≠ none → w.add ⟨0x33, value⟩ = none) ∧
     (w.restoreTime ≠ none → w.add ⟨0x34, value⟩ = none) ∧ (w.odWindow ≠ none → w.add ⟨0x35, value⟩ = none) ∧
     (w.odRetries ≠ none → w.add ⟨0x36, value⟩ = none) ∧
     ∀ code, code < 0x30 ∨ 0x36 < code → w.add ⟨code, value⟩ = none)) ∧
  ((∀ (w : DeviceWrite) (v : Byte),
     (w.window = none → w.add ⟨0x40, [v]⟩ = (if 1 ≤ v.toNat ∧ v.toNat ≤ 8 then
       some { w with window := some v.toNat } else none)) ∧
     (w.timeout = none → w.add ⟨0x41, [v]⟩ = (if 2 ≤ v.toNat then some { w with timeout := some v.toNat } else none)) ∧
     (w.failLimit = none → w.add ⟨0x42, [v]⟩ = (if 2 ≤ v.toNat ∧ v.toNat ≤ 15 then
       some { w with failLimit := some v.toNat } else none)) ∧
     (∀ b : Branch, w.enables.get b = none → w.add ⟨0x43 + b.toNat, [v]⟩ = (if v &&& 0x80 = 0 then
       some { w with enables := w.enables.set b (some v) } else none)) ∧
     (w.device = none → w.add ⟨0x47, [v]⟩ =
       (if v &&& 0xE0 = 0 then some { w with device := some v } else none))) ∧
   (∀ (w : DeviceWrite) (value : List Byte),
     (w.window ≠ none → w.add ⟨0x40, value⟩ = none) ∧ (w.timeout ≠ none → w.add ⟨0x41, value⟩ = none) ∧
     (w.failLimit ≠ none → w.add ⟨0x42, value⟩ = none) ∧
     (∀ b : Branch, w.enables.get b ≠ none → w.add ⟨0x43 + b.toNat, value⟩ = none) ∧
     (w.device ≠ none → w.add ⟨0x47, value⟩ = none) ∧
     ∀ code, code < 0x40 ∨ 0x47 < code → w.add ⟨code, value⟩ = none)) ∧
  ((∀ (w : HeaderWrite) (h l : Byte),
     (w.length = none → w.add ⟨0x28, [l]⟩ = (if l.toNat ≤ 32 then some { w with length := some l.toNat } else none)) ∧
     (w.period = none →
       w.add ⟨0x29, [h, l]⟩ = (if 2 ≤ 256 * h.toNat + l.toNat ∧ 256 * h.toNat + l.toNat ≤ 60000 then
         some { w with period := some (256 * h.toNat + l.toNat) } else none))) ∧
   (∀ (w : HeaderWrite) (value : List Byte),
     (w.length ≠ none → w.add ⟨0x28, value⟩ = none) ∧ (w.period ≠ none → w.add ⟨0x29, value⟩ = none) ∧
     ∀ code, code ≠ 0x28 → code ≠ 0x29 → w.add ⟨code, value⟩ = none)) ∧
  ((∀ (w : EntryWrite) (h l : Byte),
     (w.kind = none → w.add ⟨0x20, [l]⟩ = some { w with kind := some l.toNat }) ∧
     (w.node = none → w.add ⟨0x21, [l]⟩ = some { w with node := some l.toNat }) ∧
     (w.window = none → w.add ⟨0x22, [l]⟩ = some { w with window := some l.toNat }) ∧
     (w.retries = none → w.add ⟨0x23, [l]⟩ = some { w with retries := some l.toNat }) ∧
     (w.gap = none → w.add ⟨0x24, [h, l]⟩ = some { w with gap := some (256 * h.toNat + l.toNat) })) ∧
   (∀ (w : EntryWrite) (value : List Byte),
     (w.kind ≠ none → w.add ⟨0x20, value⟩ = none) ∧ (w.node ≠ none → w.add ⟨0x21, value⟩ = none) ∧
     (w.window ≠ none → w.add ⟨0x22, value⟩ = none) ∧ (w.retries ≠ none → w.add ⟨0x23, value⟩ = none) ∧
     (w.gap ≠ none → w.add ⟨0x24, value⟩ = none) ∧
     ∀ code, code < 0x20 ∨ 0x24 < code → w.add ⟨code, value⟩ = none)) ∧
  ((∀ n wd r : Nat, (EntryWrite.entry ⟨some 1, some n, some wd, some r, none⟩ = some (.poll n wd r) ↔
       1 ≤ n ∧ n ≤ 239 ∧ 2 ≤ wd ∧ wd ≤ 255 ∧ r ≤ 3)) ∧
   EntryWrite.entry ⟨some 2, none, none, none, none⟩ = some .sync ∧
   (∀ n : Nat, EntryWrite.entry ⟨some 3, none, none, none, some n⟩ = some (.gap n) ↔ 1 ≤ n ∧ n ≤ 4095) ∧
   (∀ (w : EntryWrite) (e : SlotEntry), w.entry = some e →
     (∃ n wd r, w = ⟨some 1, some n, some wd, some r, none⟩ ∧ e = .poll n wd r) ∨
     (w = ⟨some 2, none, none, none, none⟩ ∧ e = .sync) ∨
     ∃ n, w = ⟨some 3, none, none, none, some n⟩ ∧ e = .gap n)) ∧
  (∀ (α : Type) (start : α) (add : α → FieldItem → Option α) (items : List FieldItem) (i : FieldItem),
     Walk.gather { items := items, unlisted := true } start add = none ∧
     Walk.gather { items := [], unlisted := false } start add = some start ∧
     Walk.gather { items := items ++ [i], unlisted := false } start add =
       (Walk.gather { items := items, unlisted := false } start add).bind fun w => add w i) ∧
  NodeWrite.empty = ⟨none, none, none, none, none, none, none, none⟩ ∧
  BranchWrite.empty = ⟨none, none, none, none, none, none, none⟩ ∧
  DeviceWrite.empty = ⟨none, none, none, ⟨none, none, none, none⟩, none⟩ ∧
  HeaderWrite.empty = ⟨none, none⟩ ∧ EntryWrite.empty = ⟨none, none, none, none, none⟩ ∧
  (∀ n : Nat, Branch.ofNat? n = [Branch.b0, .b1, .b2, .b3][n]?) ∧
  (∀ n : Nat, LineRate.ofNat? n = [LineRate.r9600, .r19200, .r38400, .r57600, .r115200][n]?) ∧
  [LineRate.r9600, .r19200, .r38400, .r57600, .r115200].map LineRate.bitsPerSecond =
    [9600, 19200, 38400, 57600, 115200]

/-- WRITE DEVICE once its fields may be written: key and item 0, every field in range, and then the settings and enables
carried replace those held, together, and no flag or pending mark moves (R141, R146, R148, R159, R166, R177). -/
def Obligations.WriteDevice : Prop :=
  ∀ (s : State) (tag key item : Byte) (fields : List Byte) (w : Walk), walk fields = some w →
    (∀ i ∈ w.items, ¬ (0x48 ≤ i.code ∧ i.code ≤ 0x4D)) →
    let u := s.arrived
    let v := s.inHand tag
    (key ≠ 0 ∨ item ≠ 0 → exec (.writeDevice tag key item fields) s = .next (u.answered tag .badIndex [])) ∧
    (key = 0 → item = 0 →
      (w.gather DeviceWrite.empty DeviceWrite.add = none →
        exec (.writeDevice tag key item fields) s = .next (u.answered tag .badValue [])) ∧
      ∀ d, w.gather DeviceWrite.empty DeviceWrite.add = some d →
        exec (.writeDevice tag key item fields) s = .next (State.answered { v with
          du := { v.du with
            window := d.window.getD v.du.window
            timeout := d.timeout.getD v.du.timeout
            failLimit := d.failLimit.getD v.du.failLimit }
          eu := { v.eu with
            groups := ⟨{ v.eu.groups.b0 with enables := d.enables.b0.getD v.eu.groups.b0.enables },
                       { v.eu.groups.b1 with enables := d.enables.b1.getD v.eu.groups.b1.enables },
                       { v.eu.groups.b2 with enables := d.enables.b2.getD v.eu.groups.b2.enables },
                       { v.eu.groups.b3 with enables := d.enables.b3.getD v.eu.groups.b3.enables }⟩
            device := { v.eu.device with enables := d.device.getD v.eu.device.enables } } } tag .ok []))

/-- WRITE BRANCH once its fields may be written: the settings carried replace those held, and then supervision
disabled takes RESTORE_PENDING and FAULT to NORMAL and LOW_PENDING to NORMAL with no glitch, supervision enabled
finds a supply below and goes LOW_PENDING, and a level that changes the comparator's report is a rise or a fall (R6,
R159, R167, R189; the order of the settings before the effects is log 13). -/
def Obligations.WriteBranch : Prop :=
  ∀ (s : State) (tag key item : Byte) (fields : List Byte) (w : Walk), walk fields = some w →
    (∀ i ∈ w.items, ¬ (0x38 ≤ i.code ∧ i.code ≤ 0x3E)) →
    let u := s.arrived
    (3 < key.toNat ∨ item ≠ 0 → exec (.writeBranch tag key item fields) s = .next (u.answered tag .badIndex [])) ∧
    ∀ b : Branch, key = BitVec.ofNat 8 b.toNat → item = 0 →
      (w.gather BranchWrite.empty BranchWrite.add = none →
        exec (.writeBranch tag key item fields) s = .next (u.answered tag .badValue [])) ∧
      ∀ d, w.gather BranchWrite.empty BranchWrite.add = some d →
        let B := u.br b
        let C : BranchState := { B with
          rate := d.rate.getD B.rate
          odWindow := d.odWindow.getD B.odWindow
          odRetries := d.odRetries.getD B.odRetries
          sup := { B.sup with
            enabled := d.enabled.getD B.sup.enabled
            level := d.level.getD B.sup.level
            qualifyTime := d.qualifyTime.getD B.sup.qualifyTime
            restoreTime := d.restoreTime.getD B.sup.restoreTime } }
        let v : State := { s.inHand tag with branches := u.branches.set b C }
        let answered (t : State) : Prop :=
          exec (.writeBranch tag key item fields) s = .next (t.answered tag .ok [])
        let low : State := { v with
          branches := u.branches.set b { C with sup := { C.sup with state := .lowPending, qualify := some 0 } } }
        (B.sup.enabled = true → C.sup.enabled = false →
          (B.sup.state = .restorePending ∨ B.sup.state = .fault → answered (v.reachNormal b)) ∧
          (B.sup.state = .lowPending → answered { v with
            branches := u.branches.set b { C with sup := { C.sup with state := .normal, qualify := none } } }) ∧
          (B.sup.state = .disabled ∨ B.sup.state = .normal → answered v)) ∧
        (B.sup.enabled = false → C.sup.enabled = true →
          (B.sup.state = .normal → C.supply.val ≤ C.sup.level → answered low) ∧
          (B.sup.state ≠ .normal ∨ C.sup.level < C.supply.val → answered v)) ∧
        (B.sup.enabled = true → C.sup.enabled = true →
          (B.supply.val ≤ B.sup.level → C.sup.level < C.supply.val → answered (v.takeRise b)) ∧
          (B.sup.level < B.supply.val → C.supply.val ≤ C.sup.level → answered (v.takeFall b)) ∧
          ((B.sup.level < B.supply.val ↔ C.sup.level < C.supply.val) → answered v)) ∧
        (B.sup.enabled = false → C.sup.enabled = false → answered v)

/-- WRITE NODE once its fields may be written: the address, the values, and then a record is created with the fields
carried and the defaults of R18, refused at 96 records, or the record held is updated: a change of active decides
state and miss count (R30), and otherwise a threshold carried on an active record acts by its state, with NODE_LOST
in the group of the branch after the write (R28, R29, R31). -/
def Obligations.WriteNode : Prop :=
  ∀ (s : State) (tag key item : Byte) (fields : List Byte) (w : Walk), walk fields = some w →
    (∀ i ∈ w.items, ¬ (0x10 ≤ i.code ∧ i.code ≤ 0x17)) →
    let u := s.arrived
    let v := s.inHand tag
    (key = 0 ∨ 239 < key.toNat ∨ item ≠ 0 →
      exec (.writeNode tag key item fields) s = .next (u.answered tag .badIndex [])) ∧
    (key ≠ 0 → key.toNat ≤ 239 → item = 0 →
      (w.gather NodeWrite.empty NodeWrite.add = none →
        exec (.writeNode tag key item fields) s = .next (u.answered tag .badValue [])) ∧
      ∀ d, w.gather NodeWrite.empty NodeWrite.add = some d →
        (u.node? key.toNat = none →
          (96 ≤ u.nodes.length → exec (.writeNode tag key item fields) s = .next (u.answered tag .tableFull [])) ∧
          (u.nodes.length < 96 → exec (.writeNode tag key item fields) s = .next (State.answered { v with
            nodes := insertNode
              { address := key.toNat, branch := d.branch.getD .b0, active := d.active.getD true
                threshold := d.threshold.getD 3, divisor := d.divisor.getD 8
                reportMode := d.reportMode.getD .onChange, reportPeriod := d.reportPeriod.getD 10
                compareLength := d.compareLength.getD 24, lifetime := d.lifetime.getD 16
                health := if d.active.getD true then .online else .inactive
                misses := 0, countdown := 0, pollsSince := 0, toggle := false, lastValue := none
                okReplies := 0, totalMisses := 0 } u.nodes } tag .ok []))) ∧
        ∀ r, u.node? key.toNat = some r →
          let q : NodeRecord := { r with
            branch := d.branch.getD r.branch, active := d.active.getD r.active
            threshold := d.threshold.getD r.threshold, divisor := d.divisor.getD r.divisor
            reportMode := d.reportMode.getD r.reportMode, reportPeriod := d.reportPeriod.getD r.reportPeriod
            compareLength := d.compareLength.getD r.compareLength, lifetime := d.lifetime.getD r.lifetime }
          let held (p : NodeRecord) : State := { v with nodes := updateNode key.toNat (fun _ => p) u.nodes }
          let answered (t : State) : Prop := exec (.writeNode tag key item fields) s = .next (t.answered tag .ok [])
          (r.active = false → q.active = true →
            answered (held { q with health := .online, misses := 0 })) ∧
          (r.active = true → q.active = false →
            answered (held { q with health := .inactive, misses := 0, countdown := 0 })) ∧
          (r.active = false → q.active = false → answered (held q)) ∧
          (r.active = true → q.active = true →
            (d.threshold = none → answered (held q)) ∧
            ∀ t, d.threshold = some t →
              (r.health = .online → answered (held q)) ∧
              (r.health = .suspect → r.misses < t → answered (held q)) ∧
              (r.health = .suspect → t ≤ r.misses → answered (State.signalNode
                (held { q with health := .offline, misses := t, countdown := q.divisor }) q.branch .nodeLost
                r.address)) ∧
              (r.health = .offline → answered (held { q with misses := t }))))

/-- WRITE SCHED once its form may be written: the branch, the pending swap, the item and the values in the order of R45;
an entry write replaces the whole entry, a header write the fields it carries, of the standby bank alone (R42, R44,
R45, R165). That a header write which carries neither field is answered OK is the model's reading (log 17). -/
def Obligations.WriteSched : Prop :=
  ∀ (s : State) (tag key item : Byte) (fields : List Byte) (w : Walk), walk fields = some w →
    let u := s.arrived
    let v := s.inHand tag
    (3 < key.toNat →
      exec (.writeSchedEntry tag key item fields) s = .next (u.answered tag .badIndex []) ∧
      exec (.writeSchedHeader tag key fields) s = .next (u.answered tag .badIndex [])) ∧
    ∀ b : Branch, key = BitVec.ofNat 8 b.toNat →
      let B := u.br b
      let standby (k : Bank) : BranchState := if B.activeBank = .a then { B with bankB := k } else { B with bankA := k }
      let old := if B.activeBank = .a then B.bankB else B.bankA
      (B.swapPending = true →
        exec (.writeSchedEntry tag key item fields) s = .next (u.answered tag .busy []) ∧
        exec (.writeSchedHeader tag key fields) s = .next (u.answered tag .busy [])) ∧
      (B.swapPending = false →
        (32 ≤ item.toNat → item ≠ 0xFF →
          exec (.writeSchedEntry tag key item fields) s = .next (u.answered tag .badIndex [])) ∧
        (∀ h : item.toNat < 32,
          ((w.gather EntryWrite.empty EntryWrite.add).bind EntryWrite.entry = none →
            exec (.writeSchedEntry tag key item fields) s = .next (u.answered tag .badValue [])) ∧
          ∀ e, (w.gather EntryWrite.empty EntryWrite.add).bind EntryWrite.entry = some e →
            exec (.writeSchedEntry tag key item fields) s = .next (State.answered { v with
              branches := u.branches.set b (standby { old with entries := old.entries.set item.toNat e }) }
              tag .ok [])) ∧
        (w.gather HeaderWrite.empty HeaderWrite.add = none →
          exec (.writeSchedHeader tag key fields) s = .next (u.answered tag .badValue [])) ∧
        ∀ d, w.gather HeaderWrite.empty HeaderWrite.add = some d →
          exec (.writeSchedHeader tag key fields) s = .next (State.answered { v with
            branches := u.branches.set b (standby { old with
              length := d.length.getD old.length, period := d.period.getD old.period }) } tag .ok []))

/-! ### Requests -/

/-- DELETE_NODE, RESET_HEALTH and PURGE: the address, the record, and then the record removed with its queued
commands purged queue by queue (R38), its health fields afresh and nothing else of it (R37), or its queued commands
purged (R97, R100, R168). -/
def Obligations.RequestsOnNode : Prop :=
  ∀ (s : State) (tag a : Byte),
    let u := s.arrived
    let v := s.inHand tag
    let purged (t : State) (b : Branch) : State :=
      let gone := (t.br b).queue.filter fun c => c.node == a.toNat
      { t with
        branches := t.branches.set b { t.br b with queue := (t.br b).queue.filter fun c => c.node != a.toNat }
        pool := t.pool ++ gone.map (fun c =>
          { cls := .result, payload := [c.tag, BitVec.ofNat 8 c.node, 0x06, 0], state := .queued })
        credits := t.credits - gone.length }
    (a = 0 ∨ 239 < a.toNat → ∀ c ∈ [Instr.deleteNode tag a, .resetHealth tag a, .purge tag a],
      exec c s = .next (u.answered tag .badIndex [])) ∧
    (a ≠ 0 → a.toNat ≤ 239 →
      (u.node? a.toNat = none → ∀ c ∈ [Instr.deleteNode tag a, .resetHealth tag a, .purge tag a],
        exec c s = .next (u.answered tag .noEntry [])) ∧
      ∀ r, u.node? a.toNat = some r →
        exec (.deleteNode tag a) s = .next (State.answered
          ([Branch.b0, .b1, .b2, .b3].foldl purged { v with nodes := removeNode a.toNat u.nodes }) tag .ok []) ∧
        exec (.resetHealth tag a) s = .next (State.answered { v with
          nodes := updateNode a.toNat (fun q => { q with
            health := if q.active then .online else .inactive, misses := 0, countdown := 0, pollsSince := 0 }) u.nodes }
          tag .ok []) ∧
        exec (.purge tag a) s = .next (State.answered ([Branch.b0, .b1, .b2, .b3].foldl purged v) tag .ok []))

/-- The table as a map: a record removed is not found and every other is; an inserted one is found, and every other
as before; a changed one is found changed, and every other as before (R17). The oldest entry for a node is the first
of the queue that names it, and the others keep their order (R68, R96). -/
def Obligations.TablesAndQueuesAsLists : Prop :=
  (∀ l : List NodeRecord, (l.Pairwise fun q r => q.address < r.address) →
     (∀ r ∈ l, findNode r.address l = some r) ∧
     (∀ a b : Nat, findNode b (removeNode a l) = if b = a then none else findNode b l) ∧
     (∀ (r : NodeRecord) (b : Nat), findNode r.address l = none →
       findNode b (insertNode r l) = if b = r.address then some r else findNode b l) ∧
     (∀ (a b : Nat) (f : NodeRecord → NodeRecord), (∀ r, (f r).address = r.address) →
       findNode b (updateNode a f l) = if b = a then (findNode a l).map f else findNode b l)) ∧
  ((∀ (pre post : List Command) (c : Command), (∀ x ∈ pre, x.node ≠ c.node) →
     takeFirst c.node (pre ++ c :: post) = some (c, pre ++ post)) ∧
   ∀ (node : Nat) (l : List Command), (∀ x ∈ l, x.node ≠ node) → takeFirst node l = none) ∧
  ∀ (s : State) (a : Nat), s.node? a = findNode a s.nodes

/-- SWAP, and the taking of a swap (R47, R48). -/
def Obligations.SwapRequested : Prop :=
  (∀ (s : State) (b : Branch), s.takeSwap b = { s with
    branches := s.branches.set b
      { s.br b with activeBank := if (s.br b).activeBank = .a then .b else .a, swapPending := false }
    eu := { s.eu with groups := s.eu.groups.set b ((s.eu.groups.get b).raise 0x10) } }) ∧
  ∀ (s : State) (tag key : Byte),
    let u := s.arrived
    let v := s.inHand tag
    (3 < key.toNat → exec (.swap tag key) s = .next (u.answered tag .badIndex [])) ∧
    ∀ b : Branch, key = BitVec.ofNat 8 b.toNat →
      let B := u.br b
      (B.swapPending = true → exec (.swap tag key) s = .next (u.answered tag .busy [])) ∧
      (B.swapPending = false → B.current = .scheduled → exec (.swap tag key) s = .next (State.answered
        { v with branches := u.branches.set b { B with swapPending := true } } tag .ok [])) ∧
      (B.swapPending = false → B.current ≠ .scheduled → exec (.swap tag key) s = .next (State.answered
        { v with
          branches := u.branches.set b
            { B with activeBank := if B.activeBank = .a then .b else .a, swapPending := false }
          eu := { u.eu with groups := u.eu.groups.set b ((u.eu.groups.get b).raise 0x10) } } tag .ok []))

/-- SET_MODE writes the requested mode; a change that is then pending is taken at once on an idle branch, and waits
for the end of the slot or transaction otherwise; one naming the current mode cancels a pending change (R102, R103).
The modes are coded as in Formats (R191). That the response is offered after the change is taken is the model's
choice (R102, R158, log 21). -/
def Obligations.ModeRequested : Prop :=
  (∀ (s : State) (tag key mode : Byte),
     let u := s.arrived
     (3 < key.toNat → exec (.setMode tag key mode) s = .next (u.answered tag .badIndex [])) ∧
     (key.toNat ≤ 3 → 2 < mode.toNat → exec (.setMode tag key mode) s = .next (u.answered tag .badValue [])) ∧
     ∀ (b : Branch) (m : Mode), key = BitVec.ofNat 8 b.toNat → mode = m.code →
       let v : State := { s.inHand tag with branches := u.branches.set b { u.br b with requested := m } }
       (m ≠ (u.br b).current → (u.br b).slot = none →
         exec (.setMode tag key mode) s = .next ((v.takeChange b).answered tag .ok [])) ∧
       (m = (u.br b).current ∨ (u.br b).slot ≠ none →
         exec (.setMode tag key mode) s = .next (v.answered tag .ok []))) ∧
  [Mode.off, .scheduled, .onDemand].map Mode.code = [0x00, 0x01, 0x02]

/-- What the taking of a change of mode does (R60, R104, R105, R106, R190): out of SCHEDULED cycling ends and a
pending swap is taken; to OFF the queue empties with BRANCH_OFF and the supervisor is DISABLED; out of OFF the branch
awaits its supply; from ON_DEMAND to SCHEDULED a cycle starts, or a suspended one where the supply is out, or nothing
while the wait mark is set. A branch that awaits its supply is RESTORE_PENDING with its wait mark set and its restore
timer running where the comparator reports above; with supervision disabled it reaches NORMAL in the same step (R185,
R189). A suspended cycle takes a pending swap, raises the cycle number and the suspended-cycles counter, and leaves
the engine WAITING (R59). -/
def Obligations.ModeChangeTaken : Prop :=
  (∀ (s : State) (b : Branch),
     let B := s.br b
     let v : State := { s with branches := s.branches.set b { B with current := B.requested } }
     let ended (t : State) : State :=
       let t : State := { t with branches := t.branches.set b { t.br b with
         cycle := { (t.br b).cycle with phase := .stopped, late := false, timer := none } } }
       if B.swapPending then t.takeSwap b else t
     let off (t : State) : State := { t with
       pool := t.pool ++ (t.br b).queue.map (fun c =>
         { cls := .result, payload := [c.tag, BitVec.ofNat 8 c.node, 0x07, 0], state := .queued })
       credits := t.credits - (t.br b).queue.length
       branches := t.branches.set b { t.br b with
         queue := [], supplyWait := false
         sup := { (t.br b).sup with state := .disabled, restore := none, qualify := none, faultMark := false } } }
     let timed : State := { v with branches := v.branches.set b { v.br b with
       cycle := { (v.br b).cycle with timer := some 0 } } }
     (B.current = .scheduled → B.requested = .off → s.takeChange b = off (ended v)) ∧
     (B.current = .onDemand → B.requested = .off → s.takeChange b = off v) ∧
     (B.current = .scheduled → B.requested = .onDemand → s.takeChange b = (ended v).kick b) ∧
     (B.current = .onDemand → B.requested = .scheduled →
       (B.supplyWait = true → s.takeChange b = v) ∧
       (B.supplyWait = false → B.sup.state = .normal ∨ B.sup.state = .lowPending →
         s.takeChange b = timed.cycleStart b) ∧
       (B.supplyWait = false → B.sup.state ≠ .normal → B.sup.state ≠ .lowPending →
         s.takeChange b = timed.suspendedCycle b)) ∧
     (B.current = .off → B.requested ≠ .off → s.takeChange b = v.awaitSupply b)) ∧
  (∀ (s : State) (b : Branch),
     let B := s.br b
     let v : State := { s with branches := s.branches.set b { B with
       supplyWait := true
       sup := { B.sup with
         state := .restorePending, qualify := none, faultMark := false
         restore := if B.sup.level < B.supply.val then some 0 else none } } }
     s.awaitSupply b = if B.sup.enabled then v else v.reachNormal b) ∧
  (∀ (s : State) (b : Branch),
     let v : State := if (s.br b).swapPending then s.takeSwap b else s
     s.suspendedCycle b = { v with branches := v.branches.set b { v.br b with
       cycle := { (v.br b).cycle with number := (s.br b).cycle.number + 1, phase := .waiting }
       counters := { (s.br b).counters with suspended := bump (s.br b).counters.suspended } } })

/-- CLEAR_FLAGS: the flags named are cleared, and the pending mark, the enables, the last-node byte and every other
group stay (R170). CLEAR_COUNTERS: every counter of the group is 0 and the node statistics are kept; the response is
offered after the clear, so that one refused leaves dropped responses at 1 (R172). -/
def Obligations.ClearFlagsAndCounters : Prop :=
  (∀ (s : State) (tag group set : Byte),
     let u := s.arrived
     let v := s.inHand tag
     (4 < group.toNat → exec (.clearFlags tag group set) s = .next (u.answered tag .badIndex [])) ∧
     (∀ b : Branch, group = BitVec.ofNat 8 b.toNat →
       (set &&& 0x80 ≠ 0 → exec (.clearFlags tag group set) s = .next (u.answered tag .badValue [])) ∧
       (set &&& 0x80 = 0 → exec (.clearFlags tag group set) s = .next (State.answered
         { v with eu := { u.eu with
             groups := u.eu.groups.set b
               { u.eu.groups.get b with flags := (u.eu.groups.get b).flags &&& ~~~set } } } tag .ok []))) ∧
     (group = 4 →
       (set &&& 0xE0 ≠ 0 → exec (.clearFlags tag group set) s = .next (u.answered tag .badValue [])) ∧
       (set &&& 0xE0 = 0 → exec (.clearFlags tag group set) s = .next (State.answered
         { v with eu := { u.eu with device := { u.eu.device with flags := u.eu.device.flags &&& ~~~set } } } tag .ok [])))) ∧
  (∀ (s : State) (tag group : Byte),
     let u := s.arrived
     let v := s.inHand tag
     (4 < group.toNat → exec (.clearCounters tag group) s = .next (u.answered tag .badIndex [])) ∧
     (∀ b : Branch, group = BitVec.ofNat 8 b.toNat →
       exec (.clearCounters tag group) s = .next (State.answered { v with
         branches := u.branches.set b { u.br b with counters := ⟨0, 0, 0, 0, 0, 0, 0, 0, 0, 0, 0, 0, 0⟩ } } tag .ok [])) ∧
     (group = 4 →
       exec (.clearCounters tag group) s = .next (State.answered { v with
         rx := ⟨0, 0, 0, 0⟩
         du := { u.du with framesSent := 0, retransmissions := 0, staleAcks := 0 }
         droppedReports := 0, relaysDropped := 0, droppedResponses := 0 } tag .ok []) ∧
       (48 ≤ u.occupancy ∨ 4 ≤ u.queuedCount .mgmtResp →
         ∃ t, exec (.clearCounters tag group) s = .next t ∧ t.droppedResponses = 1)))

/-- A request at fault in its form, and a READ or WRITE of an unlisted table, are refused and change nothing (R159, R173,
R192, R193); a payload given to either row that is another row's request is that request (log 12). -/
def Obligations.BadRequests : Prop :=
  (∀ (s : State) (tag : Byte) (payload : List Byte), formAtFault payload = true →
    exec (.mgmtBadRequest tag payload) s = .next (s.arrived.answered tag .badRequest [])) ∧
  (∀ (s : State) (tag table key item : Byte) (rest : List Byte), table = 0 ∨ 8 < table.toNat →
    (rest.length = 1 →
      exec (.mgmtBadTable tag false table key item rest) s = .next (s.arrived.answered tag .badTable [])) ∧
    (walk rest ≠ none →
      exec (.mgmtBadTable tag true table key item rest) s = .next (s.arrived.answered tag .badTable []))) ∧
  (∀ payload : List Byte, formAtFault payload = true ↔
    ¬ ((∃ t k i sel, payload = [0x01, t, k, i, sel]) ∨
       (∃ t k i fields, payload = 0x02 :: t :: k :: i :: fields ∧ walk fields ≠ none) ∨
       (∃ a, payload = [0x03, a]) ∨ (∃ a, payload = [0x04, a]) ∨ (∃ a, payload = [0x05, a]) ∨
       (∃ b, payload = [0x06, b]) ∨ (∃ b m, payload = [0x07, b, m]) ∨ (∃ g f, payload = [0x08, g, f]) ∨
       (∃ g, payload = [0x09, g]) ∨ payload = [0x0A])) ∧
  (∀ (s : State) (i : Instr) (tag : Byte) (payload : List Byte), i.wf = true → i.request = some (tag, payload) →
    exec (.mgmtBadRequest tag payload) s = exec i s) ∧
  (∀ (s : State) (write : Bool) (tag table key item : Byte) (rest : List Byte),
    exec (.mgmtBadTable tag write table key item rest) s =
      exec (.mgmtBadRequest tag ((if write then 0x02 else 0x01) :: table :: key :: item :: rest)) s)

/-! ### The Event Unit -/

/-- A signal by the flag and its enable as it finds them: a clear flag becomes set and, enabled, makes its group
pending; a set flag changes nothing; no other group is touched, and the result of two signals does not depend on
their order (R175). The flags by their bits, and the last-node byte written by every NODE_LOST and NODE_BACK whatever
the flag held (R174, R176, R191). -/
def Obligations.SignalRule : Prop :=
  ((∀ (g : FlagGroup) (mask : Byte),
     (g.flags &&& mask = 0 → g.enables &&& mask ≠ 0 →
       g.raise mask = { g with flags := g.flags ||| mask, pending := true }) ∧
     (g.flags &&& mask = 0 → g.enables &&& mask = 0 → g.raise mask = { g with flags := g.flags ||| mask }) ∧
     (g.flags &&& mask ≠ 0 → g.raise mask = g)) ∧
   (∀ (g : FlagGroup) (f h : BranchFlag), (g.raise f.mask).raise h.mask = (g.raise h.mask).raise f.mask) ∧
   (∀ (g : FlagGroup) (f h : DeviceFlag), (g.raise f.mask).raise h.mask = (g.raise h.mask).raise f.mask) ∧
   (∀ (s : State) (b : Branch) (f : BranchFlag), s.signal b f =
     { s with eu := { s.eu with groups := s.eu.groups.set b ((s.eu.groups.get b).raise f.mask) } }) ∧
   (∀ (s : State) (f : DeviceFlag), s.signalDevice f =
     { s with eu := { s.eu with device := s.eu.device.raise f.mask } })) ∧
  ([BranchFlag.nodeLost, .nodeBack, .cycleOverrun, .commandExpired, .swapDone, .supplyFault, .supplyRestored].map
     BranchFlag.mask = [0x01, 0x02, 0x04, 0x08, 0x10, 0x20, 0x40] ∧
   [DeviceFlag.restart, .reportDropped, .relayDropped, .mgmtDropped, .trunkRecovered].map DeviceFlag.mask =
     [0x01, 0x02, 0x04, 0x08, 0x10] ∧
   ∀ (s : State) (b : Branch) (f : BranchFlag) (a : Nat), s.signalNode b f a =
     { s with eu := { s.eu with
       groups := s.eu.groups.set b ((s.eu.groups.get b).raise f.mask), lastNode := s.eu.lastNode.set b a } })

/-! ### Cycles and slots -/

/-- A cycle tick of a running timer (R51, R53, R59): in STOPPED nothing more; in RUNNING the late mark; in WAITING a
cycle start where the supply is usable and a suspended cycle otherwise, which takes a pending swap, raises the cycle
number and its counter, and stays WAITING. -/
def Obligations.CycleTick : Prop :=
  ∀ (s : State) (b : Branch),
    let B := s.br b
    let u : State := { s with branches := s.branches.set b { B with cycle := { B.cycle with timer := some 0 } } }
    B.cycle.timer ≠ none →
      (B.cycle.phase = .stopped → exec (.cycleTick b) s = .next u.choice) ∧
      (B.cycle.phase = .running → exec (.cycleTick b) s = .next (State.choice { s with
        branches := s.branches.set b { B with cycle := { B.cycle with timer := some 0, late := true } } })) ∧
      (B.cycle.phase = .waiting → B.sup.state = .normal ∨ B.sup.state = .lowPending →
        exec (.cycleTick b) s = .next (u.cycleStart b).choice) ∧
      (B.cycle.phase = .waiting → B.sup.state ≠ .normal → B.sup.state ≠ .lowPending →
        exec (.cycleTick b) s = .next (State.choice (
          let v : State := if B.swapPending then u.takeSwap b else u
          { v with branches := v.branches.set b { v.br b with
            cycle := { (v.br b).cycle with number := B.cycle.number + 1, phase := .waiting }
            counters := { B.counters with suspended := bump B.counters.suspended } } })))

/-- A cycle start (R48, R55, R56, R57): the pending swap, the number, the ageing of DQb with the expired entries' RESULTs
in order and COMMAND_EXPIRED, then the first slot; the cycle completes at once where no slot takes line time. -/
def Obligations.CycleStart : Prop :=
  ∀ (s : State) (b : Branch),
    let v : State := if (s.br b).swapPending then s.takeSwap b else s
    let B := v.br b
    let aged := B.queue.map fun c => { c with age := c.age + 1 }
    let expired := aged.filter fun c => c.age == c.lifetime
    let w : State := { v with
      branches := v.branches.set b { B with
        queue := aged.filter fun c => c.age != c.lifetime
        cycle := { B.cycle with number := B.cycle.number + 1, index := 0, phase := .running }
        counters := { B.counters with cycles := bump B.counters.cycles } }
      pool := v.pool ++ expired.map (fun c =>
        { cls := .result, payload := [c.tag, BitVec.ofNat 8 c.node, 0x05, 0], state := .queued })
      credits := v.credits - expired.length
      eu := if expired = [] then v.eu
            else { v.eu with groups := v.eu.groups.set b ((v.eu.groups.get b).raise 0x08) } }
    let t := w.runCycle b
    s.cycleStart b = if (t.br b).slot.isSome then t else t.completeCycle b

/-- The completion of a cycle (R54): WAITING with the late mark clear; with it set the mark clears, CYCLE_OVERRUN is
signalled and counted once, and a cycle starts at once. The slots of a cycle are run in index order up to the list
length, each started at once where the one before took no line time (R43, R65, R84). -/
def Obligations.CycleCompletes : Prop :=
  (∀ (s : State) (b : Branch), let B := s.br b
     (B.cycle.late = false → s.completeCycle b =
       { s with branches := s.branches.set b { B with cycle := { B.cycle with phase := .waiting } } }) ∧
     (B.cycle.late = true → s.completeCycle b = State.cycleStart { s with
       branches := s.branches.set b { B with
         cycle := { B.cycle with late := false }
         counters := { B.counters with overruns := bump B.counters.overruns } }
       eu := { s.eu with groups := s.eu.groups.set b ((s.eu.groups.get b).raise 0x04) } } b)) ∧
  (∀ (s : State) (b : Branch), (s.br b).slot = none →
     s.runCycle b =
       if (s.br b).active.length ≤ (s.br b).cycle.index then s
       else
         let t := s.startSlot b
         if (t.br b).slot.isSome then t else t.runCycle b)

/-- The start of a slot (R22, R34, R65, R66, R68, R82, R83): SYNC and GAP at once; a POLL slot is skipped where the
record is missing, on another branch, INACTIVE, or OFFLINE with its countdown still above 0, and otherwise takes the
oldest queued command of its node with the toggle flipped, or polls. The active bank is the one the marker names
(R44). -/
def Obligations.SlotStart : Prop :=
  ∀ (s : State) (b : Branch),
    let B := s.br b
    let run : BranchCounters := { B.counters with slotsRun := bump B.counters.slotsRun }
    let skipped (t : State) : State := { t with branches := t.branches.set b { t.br b with
      cycle := { (t.br b).cycle with index := (t.br b).cycle.index + 1 }
      counters := { B.counters with slotsSkipped := bump B.counters.slotsSkipped } } }
    let poll (node window retries : Nat) (frame : PollFrame) (queue : List Command) (line : LineFrame) : BranchState :=
      { B with
        counters := run, queue := queue, line := .sending line
        slot := some { rate := B.rate, phase := .sending
                       work := .poll { node := node, window := window, retriesLeft := retries, frame := frame
                                       failure := none, reply := none, quietFrom := .handOver } } }
    let chosen (t : State) (r : NodeRecord) (window retries : Nat) : State :=
      match takeFirst r.address B.queue with
      | none => { t with
          branches := t.branches.set b
            (poll r.address window retries .poll B.queue (LineFrame.sealed (BitVec.ofNat 8 r.address) 0x10 0 [])) }
      | some (c, rest) => { t with
          nodes := updateNode r.address (fun q => { q with toggle := !r.toggle }) t.nodes
          branches := t.branches.set b (poll r.address window retries
            (.cmd (!r.toggle) { tag := c.tag, node := c.node, payload := c.payload }) rest
            (LineFrame.sealed (BitVec.ofNat 8 r.address) 0x11 (if r.toggle then 0 else 1) c.payload)) }
    (B.active = if B.activeBank = .a then B.bankA else B.bankB) ∧
    (∀ h : B.cycle.index < 32, B.entry = B.active.entries[B.cycle.index]) ∧
    (B.entry = .sync → s.startSlot b = { s with branches := s.branches.set b { B with
      counters := run
      slot := some { rate := B.rate, phase := .sending, work := .sync }
      line := .sending (LineFrame.sealed 0 0x12 0
        [BitVec.ofNat 8 b.toNat, hi B.cycle.number, lo B.cycle.number]) } }) ∧
    (∀ n, B.entry = .gap n → s.startSlot b = { s with branches := s.branches.set b { B with
      counters := run, slot := some { rate := B.rate, phase := .holding, work := .gap n } } }) ∧
    ∀ node window retries, B.entry = .poll node window retries →
      (s.node? node = none → s.startSlot b = skipped s) ∧
      ∀ r, s.node? node = some r →
        (r.branch ≠ b ∨ r.health = .inactive → s.startSlot b = skipped s) ∧
        (r.branch = b →
          (r.health = .online ∨ r.health = .suspect → s.startSlot b = chosen s r window retries) ∧
          (r.health = .offline →
            (1 < r.countdown → s.startSlot b = skipped { s with
              nodes := updateNode node (fun q => { q with countdown := r.countdown - 1 }) s.nodes }) ∧
            (r.countdown ≤ 1 → s.startSlot b = chosen { s with
              nodes := updateNode node (fun q => { q with countdown := r.divisor }) s.nodes } r window retries)))

/-- COMMAND_EXPIRY (R57, R97): the entries whose age reaches their lifetime leave with EXPIRED in order, and
COMMAND_EXPIRED is signalled where there are any; the ages of the others stay, for the row stands for the expiry
alone (log 10, the model's choice). -/
def Obligations.CommandExpiry : Prop :=
  ∀ (s : State) (b : Branch),
    let expired := (s.br b).queue.filter fun c => c.age + 1 == c.lifetime
    exec (.commandExpiry b) s = .next (State.choice { s with
      branches := s.branches.set b { s.br b with queue := (s.br b).queue.filter fun c => c.age + 1 != c.lifetime }
      pool := s.pool ++ expired.map (fun c =>
        { cls := .result, payload := [c.tag, BitVec.ofNat 8 c.node, 0x05, 0], state := .queued })
      credits := s.credits - expired.length
      eu := if expired = [] then s.eu
            else { s.eu with groups := s.eu.groups.set b ((s.eu.groups.get b).raise 0x08) } })

/-- Transactions start while the conditions of R108 hold, in the order of the queue (R110), and each start ends its
command with NO_ROUTE or NODE_INACTIVE, or sends CMD with the toggle flipped and the on-demand settings (R34, R109,
R111). -/
def Obligations.TransactionStart : Prop :=
  ∀ (s : State) (b : Branch),
    let B := s.br b
    let ready : Prop := B.current = .onDemand ∧ B.requested = .onDemand ∧ B.supplyWait = false ∧
      (B.sup.state = .normal ∨ B.sup.state = .lowPending) ∧ B.slot = none
    (¬ ready ∨ B.queue = [] → s.kick b = s) ∧
    ∀ c rest, ready → B.queue = c :: rest →
      let taken : State := { s with branches := s.branches.set b { B with queue := rest } }
      let ended (status : Byte) : State := { taken with
        credits := s.credits - 1
        pool := s.pool ++
          [{ cls := .result, payload := [c.tag, BitVec.ofNat 8 c.node, status, 0], state := .queued }] }
      ((∀ r, s.node? c.node = some r → r.branch ≠ b) → s.kick b = (ended 0x08).kick b) ∧
      ∀ r, s.node? c.node = some r → r.branch = b →
        (r.health = .inactive → s.kick b = (ended 0x09).kick b) ∧
        (r.health ≠ .inactive → s.kick b = { taken with
          nodes := updateNode r.address (fun q => { q with toggle := !r.toggle }) s.nodes
          branches := s.branches.set b { B with
            queue := rest
            line := .sending
              (LineFrame.sealed (BitVec.ofNat 8 r.address) 0x11 (if r.toggle then 0 else 1) c.payload)
            slot := some { rate := B.rate, phase := .sending
                           work := .poll { node := r.address, window := B.odWindow, retriesLeft := B.odRetries
                                           frame := .cmd (!r.toggle) { tag := c.tag, node := c.node, payload := c.payload }
                                           failure := none, reply := none, quietFrom := .handOver } } } })

/-- The ends of frames and holds on a branch: after a POLL or CMD the slot listens and the line unit hunts (R15,
R69); SYNC and GAP slots end (R82, R83). At the end of a slot or transaction (R84, R103, R110) none is in progress
and the line is quiet; a pending change is taken; otherwise the next slot starts or the cycle completes, or the next
transaction starts. BDEb is driven exactly while the line unit is SENDING (R4, R15; log 19). -/
def Obligations.WorkEnds : Prop :=
  (∀ (s : State) (b : Branch),
     (∀ rate w, (s.br b).slot = some { rate := rate, phase := .sending, work := .poll w } →
       exec (.attemptFrameSent b) s = .next { s with branches := s.branches.set b { s.br b with
         slot := some { rate := rate, phase := .listening, work := .poll w }, line := .hunting } }) ∧
     ((s.br b).current ≠ .onDemand →
       (∀ rate phase, (s.br b).slot = some { rate := rate, phase := phase, work := .sync } →
         exec (.syncSlotEnd b) s = .next (s.endWork b).choice) ∧
       (∀ rate phase n, (s.br b).slot = some { rate := rate, phase := phase, work := .gap n } →
         exec (.gapSlotEnd b) s = .next (s.endWork b).choice))) ∧
  (∀ (s : State) (b : Branch),
     let B := s.br b
     let index := if B.current = .onDemand then B.cycle.index else B.cycle.index + 1
     let v : State := { s with
       branches := s.branches.set b
         { B with slot := none, line := .quiet, cycle := { B.cycle with index := index } } }
     (B.requested ≠ B.current → s.endWork b = v.takeChange b) ∧
     (B.requested = B.current → B.current = .onDemand → s.endWork b = v.kick b) ∧
     (B.requested = B.current → B.current ≠ .onDemand →
       let t := v.runCycle b
       s.endWork b = if (t.br b).slot.isSome then t else t.completeCycle b)) ∧
  ∀ B : BranchState, B.driverEnable = true ↔ ∃ f, B.line = .sending f

/-! ### Attempts -/

/-- The class of an attempt by what is heard in its window, the first row of R70 that applies (R15, R16, R69 to R73,
R193): nothing is NO_REPLY; a complete reply is WRONG_NODE, BAD_CHECK, BAD_FORM or OK, and OK ends the attempts; a
fragment is WRONG_NODE or BAD_FORM by its address. A failed attempt is counted; one whose line is quiet ends at once,
and a fragment for over-length, interruption or framing error settles first, with the line unit QUIET, until
SETTLING_END ends it. That an ending is taken with the line unit HUNTING as well as RECEIVING, and with whatever
address its row carries, is the model's choice (log 6). That the Delivery Unit chooses once, after the write-back and
the end of the work together, is the model's reading (R138, log 9). -/
def Obligations.AttemptClassed : Prop :=
  (∀ (w : PollWork) (f : LineFrame),
     (f.address.toNat ≠ w.node → w.classify f = some .wrongNode) ∧
     (f.address.toNat = w.node → f.checkAgrees = false → w.classify f = some .badCheck) ∧
     (f.address.toNat = w.node → f.checkAgrees = true →
       (w.frame = .poll → w.classify f = if f.kind = 0x20 then none else some .badForm) ∧
       ∀ toggle c, w.frame = .cmd toggle c → w.classify f =
         if (f.kind = 0x21 ∨ f.kind = 0x22) ∧ f.third = (if toggle then 1 else 0) then none else some .badForm)) ∧
  (∀ (s : State) (b : Branch) (rate : LineRate) (w : PollWork),
     let B := s.br b
     let failed (cls : FailClass) : State := State.endAttempt
       { s with branches := s.branches.set b { B with
         counters := if cls = .noReply then { B.counters with noReply := bump B.counters.noReply }
                     else { B.counters with lineErrors := bump B.counters.lineErrors } } } b rate
       { w with failure := some cls }
     let byAddress (a : Byte) : FailClass := if a.toNat = w.node then .badForm else .wrongNode
     (B.slot = some { rate := rate, phase := .listening, work := .poll w } →
       (B.line = .hunting → exec (.nothingHeard b) s = .next (failed .noReply).choice) ∧
       ((B.line = .hunting ∨ ∃ taken, B.line = .receiving taken) →
         (∀ a, exec (.branchGap b a) s = .next (failed (byAddress a)).choice) ∧
         ∀ f : LineFrame,
           (∀ cls, w.classify f = some cls → exec (.branchReplyComplete b f) s = .next (failed cls).choice) ∧
           (w.classify f = none → exec (.branchReplyComplete b f) s = .next (State.choice (State.endWork
             (s.writeBack b { w with reply := some { kind := f.kind, tog := f.third, payload := f.payload } }) b))))) ∧
     (B.slot = some { rate := rate, phase := .settling, work := .poll w } →
       exec (.settlingEnd b) s = .next (s.endAttempt b rate w).choice)) ∧
  (∀ (s : State) (b : Branch) (rate : LineRate) (w : PollWork) (a : Byte) (cause : FragmentCause),
     let B := s.br b
     B.slot = some { rate := rate, phase := .listening, work := .poll w } →
     (B.line = .hunting ∨ ∃ taken, B.line = .receiving taken) →
     exec (.branchFragment b a cause) s = .next { s with branches := s.branches.set b { B with
       line := .quiet
       counters := { B.counters with lineErrors := bump B.counters.lineErrors }
       slot := some { rate := rate, phase := .settling
                      work := .poll { w with
                        failure := some (if a.toNat = w.node then .badForm else .wrongNode)
                        quietFrom := if cause = .framingError then .lineReturn else .handOver } } } })

/-- A failed attempt ends (R73, R74): with retries left the same frame goes out again, with no new lookup and no
flip, and the retry is counted; with none left the write-back is made and the work ends. -/
def Obligations.AttemptEnds : Prop :=
  ∀ (s : State) (b : Branch) (rate : LineRate) (w : PollWork),
    (w.retriesLeft = 0 → s.endAttempt b rate w = (s.writeBack b w).endWork b) ∧
    ∀ n, w.retriesLeft = n + 1 → s.endAttempt b rate w =
      { s with branches := s.branches.set b { s.br b with
        counters := { (s.br b).counters with retries := bump (s.br b).counters.retries }
        slot := some { rate := rate, phase := .sending, work := .poll { w with retriesLeft := n } }
        line := .sending (match w.frame with
          | .poll => LineFrame.sealed (BitVec.ofNat 8 w.node) 0x10 0 []
          | .cmd toggle c => LineFrame.sealed (BitVec.ofNat 8 w.node) 0x11 (if toggle then 1 else 0) c.payload) } }

/-- BRANCH_CHARACTER by the state of the line unit (R15, R16, R72): SENDING hears nothing, QUIET discards and a
settling wait starts again, from the character, or after a framing error from the return of the line to 1, HUNTING
starts at an address character, RECEIVING appends; a character that ends the frame does what its own row does (log
6). -/
def Obligations.BranchCharacters : Prop :=
  ∀ (s : State) (b : Branch) (v : Byte),
    let B := s.br b
    let lined (l : LineUnit) : State := { s with branches := s.branches.set b { B with line := l } }
    (∀ f marker, B.line = .sending f → exec (.branchCharacter b marker v) s = .next s) ∧
    (∀ marker, B.line = .quiet →
      (∀ rate w, B.slot = some { rate := rate, phase := .settling, work := .poll w } →
        exec (.branchCharacter b marker v) s = .next { s with branches := s.branches.set b { B with
          slot := some { rate := rate, phase := .settling
                         work := .poll { w with quietFrom := .lastCharacter } } } }) ∧
      ((∀ rate w, B.slot ≠ some { rate := rate, phase := .settling, work := .poll w }) →
        exec (.branchCharacter b marker v) s = .next s)) ∧
    (∀ a, B.line = .quiet →
      (∀ rate w, B.slot = some { rate := rate, phase := .settling, work := .poll w } →
        exec (.branchFragment b a .framingError) s = .next { s with branches := s.branches.set b { B with
          slot := some { rate := rate, phase := .settling
                         work := .poll { w with quietFrom := .lineReturn } } } }) ∧
      ((∀ rate w, B.slot ≠ some { rate := rate, phase := .settling, work := .poll w }) →
        exec (.branchFragment b a .framingError) s = .next s)) ∧
    (B.line = .hunting →
      exec (.branchCharacter b false v) s = .next s ∧
      exec (.branchCharacter b true v) s = .next (lined (.receiving [v]))) ∧
    ∀ a rest, B.line = .receiving (a :: rest) →
      exec (.branchCharacter b true v) s = exec (.branchFragment b a .interrupted) s ∧
      (rest.length = 2 → 24 < v.toNat →
        exec (.branchCharacter b false v) s = exec (.branchFragment b a .overLength) s) ∧
      (partialFrame 24 (a :: rest ++ [v]) →
        exec (.branchCharacter b false v) s = .next (lined (.receiving (a :: rest ++ [v])))) ∧
      (∀ f : LineFrame, f.payload.length ≤ 24 → a :: rest ++ [v] = f.values →
        exec (.branchCharacter b false v) s = exec (.branchReplyComplete b f) s)

/-! ### The write-back -/

/-- The write-back by what it finds at the address (R23, R24, R26, R27, R75): an orphan is counted; an INACTIVE
record counts its statistics; an OK outcome makes the record ONLINE, with NODE_BACK from OFFLINE, and a poll's reply
goes to the report decision; a failed one raises the miss count, with NODE_LOST at the threshold, or leaves OFFLINE.
Then a command's credit converts into a RESULT whose status and bytes come from the outcome and the reply, whatever
was found, and an OK outcome is counted by its frame (R76, R89, R122). -/
def Obligations.WriteBack : Prop :=
  (∀ (s : State) (b : Branch) (w : PollWork),
     let orphan : State := { s with branches := s.branches.set b { s.br b with
       counters := { (s.br b).counters with orphans := bump (s.br b).counters.orphans } } }
     (s.node? w.node = none → s.applyOutcome b w = orphan) ∧
     ∀ r, s.node? w.node = some r →
       let held (p : NodeRecord) : State := { s with nodes := updateNode w.node (fun _ => p) s.nodes }
       let ok : NodeRecord := { r with misses := 0, health := .online, countdown := 0, okReplies := bump r.okReplies }
       let missed : NodeRecord := { r with totalMisses := bump r.totalMisses, misses := r.misses + 1 }
       (r.branch ≠ b → s.applyOutcome b w = orphan) ∧
       (r.branch = b → r.health = .inactive →
         (w.reply ≠ none → s.applyOutcome b w = held { r with okReplies := bump r.okReplies }) ∧
         (w.reply = none → s.applyOutcome b w = held { r with totalMisses := bump r.totalMisses })) ∧
       (r.branch = b → r.health ≠ .inactive →
         (∀ reply, w.reply = some reply →
           let t := if r.health = .offline then (held ok).signalNode b .nodeBack w.node else held ok
           (w.frame = .poll → s.applyOutcome b w = t.reportDecision b ok reply.payload) ∧
           (∀ toggle c, w.frame = .cmd toggle c → s.applyOutcome b w = t)) ∧
         (w.reply = none →
           (r.health = .offline → s.applyOutcome b w = held { r with totalMisses := bump r.totalMisses }) ∧
           (r.health ≠ .offline → r.misses + 1 < r.threshold →
             s.applyOutcome b w = held { missed with health := .suspect }) ∧
           (r.health ≠ .offline → r.threshold ≤ r.misses + 1 →
             s.applyOutcome b w =
               (held { missed with health := .offline, countdown := r.divisor }).signalNode b .nodeLost w.node)))) ∧
  (∀ (s : State) (b : Branch) (w : PollWork),
     let t := s.applyOutcome b w
     let result (c : InFlight) (status : Byte) (reply : List Byte) : State := { t with
       credits := t.credits - 1
       pool := t.pool ++
         [{ cls := .result
            payload := c.tag :: BitVec.ofNat 8 c.node :: status :: BitVec.ofNat 8 reply.length :: reply
            state := .queued }] }
     (w.frame = .poll →
       (w.reply = none → s.writeBack b w = t) ∧
       (w.reply ≠ none → s.writeBack b w = { t with branches := t.branches.set b { t.br b with
         counters := { (t.br b).counters with pollOk := bump (t.br b).counters.pollOk } } })) ∧
     ∀ toggle c, w.frame = .cmd toggle c →
       (w.reply = none → w.failure = some .noReply → s.writeBack b w = result c 0x02 []) ∧
       (w.reply = none → w.failure ≠ some .noReply → s.writeBack b w = result c 0x03 []) ∧
       ∀ reply, w.reply = some reply → s.writeBack b w =
         (let v := result c (if reply.kind = 0x21 then 0x00 else 0x01) reply.payload
          { v with branches := v.branches.set b { v.br b with
            counters := { (v.br b).counters with commandOk := bump (v.br b).counters.commandOk } } }))

/-- A reply differs from the last value where it is absent, where the lengths differ, or where some byte among the
first k of each differs, k the smaller of the compare length and the payload length (R78). The report decision (R77,
R79, R80, R124, R127): due by mode, comparison and period as they stand; admitted below the ceiling of 40, when the
last value becomes the whole reply and the count 0; refused at it, with REPORT_DROPPED and its counter, the last
value kept and the count raised; raised too where nothing is due, saturating at 255. -/
def Obligations.ReportDecision : Prop :=
  (∀ (last : Option (List Byte)) (compareLength : Nat) (reply : List Byte),
     replyDiffers last compareLength reply = true ↔
       last = none ∨ ∃ v, last = some v ∧
         (reply.length ≠ v.length ∨ ∃ i, i < compareLength ∧ i < reply.length ∧ v[i]? ≠ reply[i]?)) ∧
  (∀ (s : State) (b : Branch) (r : NodeRecord) (reply : List Byte),
     let differs := replyDiffers r.lastValue r.compareLength reply
     let due : Prop := r.reportMode = .every ∨ (r.reportMode = .onChange ∧ differs = true) ∨
       (r.reportMode = .periodic ∧ (differs = true ∨ r.reportPeriod ≤ r.pollsSince + 1))
     let counted (t : State) : State := { t with
       nodes := updateNode r.address (fun q => { q with pollsSince := min (q.pollsSince + 1) 255 }) t.nodes }
     (¬ due → s.reportDecision b r reply = counted s) ∧
     (due → s.occupancy < 40 → s.reportDecision b r reply = { s with
       pool := s.pool ++
         [{ cls := .report
            payload := BitVec.ofNat 8 r.address :: BitVec.ofNat 8 b.toNat :: hi (s.br b).cycle.number ::
              lo (s.br b).cycle.number :: BitVec.ofNat 8 reply.length :: reply
            state := .queued }]
       nodes := updateNode r.address (fun q => { q with lastValue := some reply, pollsSince := 0 }) s.nodes }) ∧
     (due → 40 ≤ s.occupancy → s.reportDecision b r reply = counted { s with
       eu := { s.eu with device := s.eu.device.raise 0x02 }, droppedReports := bump s.droppedReports }))

/-! ### Supply supervision -/

/-- A supply that crosses the threshold of its level is a rise or a fall, taken by the supervisor's state where
supervision is enabled, as a level that crosses it is; one that crosses none changes the supply alone, and one
against the row's name nothing (R184, R185, R189; the supply as a count of thresholds, and a row against its name,
are log 7). The eight thresholds are 15 to 22 volts, and BPWb is on exactly outside DISABLED (R184, R185; log 19). -/
def Obligations.SupplyChanges : Prop :=
  (∀ (s : State) (b : Branch) (n : Fin 9),
     let B := s.br b
     let set (sup : Supervisor) (counters : BranchCounters) : State :=
       { s with branches := s.branches.set b { B with supply := n, sup := sup, counters := counters } }
     (n < B.supply → exec (.supplyRise b n) s = .next s) ∧
     (B.supply < n → exec (.supplyFall b n) s = .next s) ∧
     (B.supply ≤ n →
       (B.sup.enabled = false ∨ n.val ≤ B.sup.level ∨ B.sup.level < B.supply.val →
         exec (.supplyRise b n) s = .next (set B.sup B.counters)) ∧
       (B.sup.enabled = true → B.supply.val ≤ B.sup.level → B.sup.level < n.val →
         (B.sup.state = .disabled ∨ B.sup.state = .normal →
           exec (.supplyRise b n) s = .next (set B.sup B.counters)) ∧
         (B.sup.state = .restorePending ∨ B.sup.state = .fault →
           exec (.supplyRise b n) s = .next (set { B.sup with state := .restorePending, restore := some 0 } B.counters)) ∧
         (B.sup.state = .lowPending → exec (.supplyRise b n) s = .next (set
           { B.sup with state := .normal, qualify := none }
           { B.counters with glitches := bump B.counters.glitches })))) ∧
     (n ≤ B.supply →
       (B.sup.enabled = false ∨ B.supply.val ≤ B.sup.level ∨ B.sup.level < n.val →
         exec (.supplyFall b n) s = .next (set B.sup B.counters)) ∧
       (B.sup.enabled = true → n.val ≤ B.sup.level → B.sup.level < B.supply.val →
         (B.sup.state = .disabled ∨ B.sup.state = .lowPending ∨ B.sup.state = .fault →
           exec (.supplyFall b n) s = .next (set B.sup B.counters)) ∧
         (B.sup.state = .restorePending →
           exec (.supplyFall b n) s = .next (set { B.sup with restore := none } B.counters)) ∧
         (B.sup.state = .normal →
           exec (.supplyFall b n) s = .next (set { B.sup with state := .lowPending, qualify := some 0 } B.counters)))) ∧
     let taken (sup : Supervisor) (counters : BranchCounters) : State :=
       { s with branches := s.branches.set b { B with sup := sup, counters := counters } }
     s.takeRise b = (match B.sup.state with
       | .disabled | .normal => s
       | .restorePending | .fault => taken { B.sup with state := .restorePending, restore := some 0 } B.counters
       | .lowPending => taken { B.sup with state := .normal, qualify := none }
           { B.counters with glitches := bump B.counters.glitches }) ∧
     s.takeFall b = (match B.sup.state with
       | .disabled | .lowPending | .fault => s
       | .restorePending => taken { B.sup with restore := none } B.counters
       | .normal => taken { B.sup with state := .lowPending, qualify := some 0 } B.counters)) ∧
  (List.range 8).map thresholdVolts = [15, 16, 17, 18, 19, 20, 21, 22] ∧
  ∀ B : BranchState, B.powerOn = true ↔ B.sup.state ≠ .disabled

/-- The qualify timer of a LOW_PENDING supervisor expires (R58, R85, R187): FAULT with its mark and SUPPLY_FAULT, the
work abandoned with LINE_FAULT for its command, DQb emptied with LINE_FAULT after it, a running cycle ended and
WAITING, and then a change of mode that waited. The command in flight is that of the CMD slot or transaction in
progress (R64). That the Delivery Unit chooses once, after the fault and the change together, is the model's reading
(R138, log 9). -/
def Obligations.SupplyFault : Prop :=
  (∀ (s : State) (b : Branch),
     let B := s.br b
     let result (tag : Byte) (node : Nat) : Entry :=
       { cls := .result, payload := [tag, BitVec.ofNat 8 node, 0x04, 0], state := .queued }
     let inFlight : List Entry := (B.inFlight.map fun c => result c.tag c.node).toList
     let t : State := { s with
       eu := { s.eu with groups := s.eu.groups.set b ((s.eu.groups.get b).raise 0x20) }
       pool := s.pool ++ inFlight ++ B.queue.map (fun c => result c.tag c.node)
       credits := s.credits - inFlight.length - B.queue.length
       branches := s.branches.set b { B with
         sup := { B.sup with state := .fault, qualify := none, faultMark := true }
         slot := none, line := .quiet, queue := []
         cycle := if B.cycle.phase = .running then { B.cycle with phase := .waiting, late := false } else B.cycle } }
     B.sup.state = .lowPending → B.sup.qualify ≠ none →
       (B.requested = B.current → exec (.qualifyTimerExpiry b) s = .next t.choice) ∧
       (B.requested ≠ B.current → exec (.qualifyTimerExpiry b) s = .next (t.takeChange b).choice)) ∧
  ∀ (B : BranchState) (c : InFlight), B.inFlight = some c ↔
    ∃ rate phase w toggle, B.slot = some { rate := rate, phase := phase, work := .poll w } ∧ w.frame = .cmd toggle c

/-- The restore timer of a RESTORE_PENDING supervisor expires (R52, R105, R188): NORMAL, SUPPLY_RESTORED where the fault
mark is set, and with the wait mark set the engine begins work: in SCHEDULED its timer starts and a cycle starts. -/
def Obligations.SupplyRestored : Prop :=
  ∀ (s : State) (b : Branch),
    let B := s.br b
    let t : State := { s with
      eu := if B.sup.faultMark then { s.eu with groups := s.eu.groups.set b ((s.eu.groups.get b).raise 0x40) }
            else s.eu
      branches := s.branches.set b { B with
        supplyWait := false, sup := { B.sup with state := .normal, restore := none, faultMark := false } } }
    (B.sup.state = .restorePending → B.sup.restore ≠ none →
      exec (.restoreTimerExpiry b) s = .next (s.reachNormal b).choice) ∧
    (B.supplyWait = false → s.reachNormal b = t.kick b) ∧
    (B.supplyWait = true →
      (B.current = .onDemand → s.reachNormal b = t.kick b) ∧
      (B.current = .off → s.reachNormal b = t) ∧
      (B.current = .scheduled → s.reachNormal b = State.cycleStart { t with
        branches := t.branches.set b { t.br b with cycle := { B.cycle with timer := some 0 } } } b))

/-! ### Frames -/

/-- What an event of one branch leaves unchanged: every other branch, the settings and banks of its own, the record
configuration, the trunk receiver, the straps, the delivery settings, the enables and the restart cause. The commands
are named one by one. -/
def Obligations.BranchEventFrame : Prop :=
  (∀ (c : Instr) (b : Branch) (s t : State), branchRow c = some b → exec c s = .next t →
     (∀ d, d ≠ b → t.br d = s.br d) ∧
     (t.br b).rate = (s.br b).rate ∧ (t.br b).odWindow = (s.br b).odWindow ∧ (t.br b).odRetries = (s.br b).odRetries ∧
     (t.br b).bankA = (s.br b).bankA ∧ (t.br b).bankB = (s.br b).bankB ∧
     (t.br b).sup.enabled = (s.br b).sup.enabled ∧ (t.br b).sup.level = (s.br b).sup.level ∧
     (t.br b).sup.qualifyTime = (s.br b).sup.qualifyTime ∧ (t.br b).sup.restoreTime = (s.br b).sup.restoreTime ∧
     t.nodes.map NodeRecord.restarted = s.nodes.map NodeRecord.restarted ∧
     t.strap = s.strap ∧ t.trunkRate = s.trunkRate ∧ t.receiver = s.receiver ∧ t.rx = s.rx ∧ t.muTag = s.muTag ∧
     t.droppedResponses = s.droppedResponses ∧ t.relaysDropped = s.relaysDropped ∧ t.du.window = s.du.window ∧
     t.du.timeout = s.du.timeout ∧ t.du.failLimit = s.du.failLimit ∧ t.eu.cause = s.eu.cause ∧
     ∀ g, (t.eu.group g).enables = (s.eu.group g).enables) ∧
  (∀ r : NodeRecord, r.restarted = { r with
     health := if r.active then .online else .inactive
     misses := 0, countdown := 0, pollsSince := 0, toggle := false, lastValue := none
     okReplies := 0, totalMisses := 0 }) ∧
  ∀ (c : Instr) (b : Branch), branchRow c = some b ↔
    c ∈ [.cycleTick b, .commandExpiry b, .attemptFrameSent b, .nothingHeard b, .settlingEnd b, .syncSlotEnd b,
      .gapSlotEnd b, .qualifyTimerExpiry b, .restoreTimerExpiry b] ∨
    (∃ f, c = .branchReplyComplete b f) ∨ (∃ a cause, c = .branchFragment b a cause) ∨ (∃ a, c = .branchGap b a) ∨
    (∃ n, c = .supplyRise b n) ∨ (∃ n, c = .supplyFall b n) ∨ ∃ marker v, c = .branchCharacter b marker v

/-! ### Invariants -/

/-- Every step keeps the node table and the queues: at most 96 records, ascending, each in a row of R21 and within
its ranges; at most 8 queued commands a branch, each younger than its lifetime and for a record that is held (R17,
R18, R21, R57, R96, R100, R174). -/
def Obligations.QueuesKept : Prop := ∀ s t : State, QueuesOk s → step s = .next t → QueuesOk t

/-- Every step keeps every branch: no work without a usable supply (R107), the cycle with the mode, the line with the
slot, the supervisor with its comparator. -/
def Obligations.BranchesKept : Prop := ∀ s t : State, BranchesOk s → step s = .next t → BranchesOk t

/-- Every step keeps the pool: the credit count is the commands owed a RESULT (R118), the occupancy stays at most 48
(R119), the QUEUED responses at most 4 (R121), the REPORTs at most 40 (R124), and no ALERT waits. -/
def Obligations.PoolKept : Prop := ∀ s t : State, PoolOk s → step s = .next t → PoolOk t

/-- Every step keeps delivery: SENT numbers consecutive and at most 8 (R140), the timer running exactly while
something is SENT and the trunk is not DOWN (R146), UP with a timeout count of 0 (R148), a round over SENT entries
(R149), and the window, the retransmit timeout and the fail limit in their ranges (R141, R146, R148). The oldest SENT
number is taken as the next number less the count of SENT entries (log 15, the model's reading). -/
def Obligations.DeliveryKept : Prop := ∀ s t : State, DeliveryOk s → step s = .next t → DeliveryOk t

/-- Every step keeps every branch setting and both banks in their ranges and every group to its own flags (R41, R44,
R111, R174, R184, R193). -/
def Obligations.SettingsKept : Prop := ∀ s t : State, SettingsOk s → step s = .next t → SettingsOk t

/-- Every step keeps what the trunk receiver holds a beginning of a frame (R10), and every payload within its line,
the commands that wait being well formed: those of the pool (R8, R115), the queues (R96), the command in flight
(R64), the frame sent or assembled on a branch (R8, R16) and the last values (R19), with the check of R9 on the frame
the trunk sends. That no reply is held between steps is the model's reading of R73 (log 16). -/
def Obligations.FramesKept : Prop :=
  (∀ s t : State, ReceiverOk s → step s = .next t → ReceiverOk t) ∧
  (∀ s t : State, FramesFit s → step s = .next t → FramesFit t)
end

