-- ==== Sys2Proof/Laws/State.lean ====
section
/-! SUPPORT. What each named update leaves as it was, one lemma per field, and reading one branch, record or group back
after a write. -/
namespace Sys2Proof.Machine

/-! ### One value for each branch -/

@[simp] theorem Per.get_set_same {α : Type} (p : Per α) (b : Branch) (x : α) : (p.set b x).get b = x := by
  cases b <;> rfl

theorem Per.get_set_other {α : Type} (p : Per α) {b c : Branch} (x : α) (h : c ≠ b) : (p.set b x).get c = p.get c := by
  cases b <;> cases c <;> first | rfl | exact absurd rfl h

@[simp] theorem Per.get_map {α β : Type} (f : α → β) (p : Per α) (b : Branch) : (p.map f).get b = f (p.get b) := by
  cases b <;> rfl

/-- Two values for each branch are equal where they are for every branch. -/
theorem Per.ext_get {α : Type} {p q : Per α} (h : ∀ b, p.get b = q.get b) : p = q := by
  cases p; cases q
  have h0 := h .b0; have h1 := h .b1; have h2 := h .b2; have h3 := h .b3
  simp only [Per.get] at h0 h1 h2 h3
  subst h0 h1 h2 h3
  rfl

/-! ### A branch read back -/

@[simp] theorem State.onBr_br_same (s : State) (b : Branch) (f : BranchState → BranchState) :
    (s.onBr b f).br b = f (s.br b) := by simp [State.br, State.onBr]

theorem State.onBr_br_other (s : State) {b c : Branch} (f : BranchState → BranchState) (h : c ≠ b) :
    (s.onBr b f).br c = s.br c := Per.get_set_other _ _ h

@[simp] theorem State.count_br_same (s : State) (b : Branch) (f : BranchCounters → BranchCounters) :
    (s.count b f).br b = { s.br b with counters := f (s.br b).counters } := by simp [State.count]

@[simp] theorem State.onCycle_br_same (s : State) (b : Branch) (f : Cycle → Cycle) :
    (s.onCycle b f).br b = { s.br b with cycle := f (s.br b).cycle } := by simp [State.onCycle]

@[simp] theorem State.onSup_br_same (s : State) (b : Branch) (f : Supervisor → Supervisor) :
    (s.onSup b f).br b = { s.br b with sup := f (s.br b).sup } := by simp [State.onSup]

theorem State.count_br_other (s : State) {b c : Branch} (f : BranchCounters → BranchCounters) (h : c ≠ b) :
    (s.count b f).br c = s.br c := s.onBr_br_other _ h

theorem State.onCycle_br_other (s : State) {b c : Branch} (f : Cycle → Cycle) (h : c ≠ b) :
    (s.onCycle b f).br c = s.br c := s.onBr_br_other _ h

theorem State.onSup_br_other (s : State) {b c : Branch} (f : Supervisor → Supervisor) (h : c ≠ b) :
    (s.onSup b f).br c = s.br c := s.onBr_br_other _ h

/-! ### The field an update changes -/

@[simp] theorem State.onNode_nodes (s : State) (a : Nat) (f : NodeRecord → NodeRecord) :
    (s.onNode a f).nodes = updateNode a f s.nodes := rfl

@[simp] theorem State.addEntry_pool (s : State) (c : UplinkClass) (p : List Byte) :
    (s.addEntry c p).pool = s.pool ++ [{ cls := c, payload := p, state := .queued }] := rfl

@[simp] theorem State.reserve_credits (s : State) : s.reserve.credits = s.credits + 1 := rfl

@[simp] theorem State.convert_pool (s : State) (t : Byte) (n : Nat) (st : ResultStatus) (r : List Byte) :
    (s.convert t n st r).pool =
      s.pool ++ [{ cls := .result, payload := resultPayload t n st r, state := .queued }] := rfl

@[simp] theorem State.convert_credits (s : State) (t : Byte) (n : Nat) (st : ResultStatus) (r : List Byte) :
    (s.convert t n st r).credits = s.credits - 1 := rfl

@[simp] theorem State.notice_pool (s : State) (t : Byte) (n : Nat) (st : ResultStatus) :
    (s.notice t n st).pool =
      s.pool ++ [{ cls := .result, payload := resultPayload t n st [], state := .queued }] := rfl

@[simp] theorem State.signal_eu (s : State) (b : Branch) (f : BranchFlag) :
    (s.signal b f).eu = s.eu.onGroup (.branch b) (·.raise f.mask) := rfl

@[simp] theorem State.signalDevice_eu (s : State) (f : DeviceFlag) :
    (s.signalDevice f).eu = s.eu.onGroup .device (·.raise f.mask) := rfl

/-! ### The fields an update keeps -/

@[simp] theorem State.onBr_strap (s : State) (b : Branch) (f : BranchState → BranchState) :
    (s.onBr b f).strap = s.strap := rfl
@[simp] theorem State.onBr_trunkRate (s : State) (b : Branch) (f : BranchState → BranchState) :
    (s.onBr b f).trunkRate = s.trunkRate := rfl
@[simp] theorem State.onBr_receiver (s : State) (b : Branch) (f : BranchState → BranchState) :
    (s.onBr b f).receiver = s.receiver := rfl
@[simp] theorem State.onBr_rx (s : State) (b : Branch) (f : BranchState → BranchState) : (s.onBr b f).rx = s.rx := rfl
@[simp] theorem State.onBr_muTag (s : State) (b : Branch) (f : BranchState → BranchState) :
    (s.onBr b f).muTag = s.muTag := rfl
@[simp] theorem State.onBr_droppedResponses (s : State) (b : Branch) (f : BranchState → BranchState) :
    (s.onBr b f).droppedResponses = s.droppedResponses := rfl
@[simp] theorem State.onBr_nodes (s : State) (b : Branch) (f : BranchState → BranchState) :
    (s.onBr b f).nodes = s.nodes := rfl
@[simp] theorem State.onBr_pool (s : State) (b : Branch) (f : BranchState → BranchState) :
    (s.onBr b f).pool = s.pool := rfl
@[simp] theorem State.onBr_credits (s : State) (b : Branch) (f : BranchState → BranchState) :
    (s.onBr b f).credits = s.credits := rfl
@[simp] theorem State.onBr_droppedReports (s : State) (b : Branch) (f : BranchState → BranchState) :
    (s.onBr b f).droppedReports = s.droppedReports := rfl
@[simp] theorem State.onBr_relaysDropped (s : State) (b : Branch) (f : BranchState → BranchState) :
    (s.onBr b f).relaysDropped = s.relaysDropped := rfl
@[simp] theorem State.onBr_du (s : State) (b : Branch) (f : BranchState → BranchState) : (s.onBr b f).du = s.du := rfl
@[simp] theorem State.onBr_eu (s : State) (b : Branch) (f : BranchState → BranchState) : (s.onBr b f).eu = s.eu := rfl
@[simp] theorem State.onBr_pending (s : State) (b : Branch) (f : BranchState → BranchState) :
    (s.onBr b f).pending = s.pending := rfl
@[simp] theorem State.onBr_ticks (s : State) (b : Branch) (f : BranchState → BranchState) :
    (s.onBr b f).ticks = s.ticks := rfl
@[simp] theorem State.onBr_node? (s : State) (b : Branch) (f : BranchState → BranchState) (m : Nat) :
    (s.onBr b f).node? m = s.node? m := rfl

@[simp] theorem State.count_strap (s : State) (b : Branch) (f : BranchCounters → BranchCounters) :
    (s.count b f).strap = s.strap := rfl
@[simp] theorem State.count_trunkRate (s : State) (b : Branch) (f : BranchCounters → BranchCounters) :
    (s.count b f).trunkRate = s.trunkRate := rfl
@[simp] theorem State.count_receiver (s : State) (b : Branch) (f : BranchCounters → BranchCounters) :
    (s.count b f).receiver = s.receiver := rfl
@[simp] theorem State.count_rx (s : State) (b : Branch) (f : BranchCounters → BranchCounters) :
    (s.count b f).rx = s.rx := rfl
@[simp] theorem State.count_muTag (s : State) (b : Branch) (f : BranchCounters → BranchCounters) :
    (s.count b f).muTag = s.muTag := rfl
@[simp] theorem State.count_droppedResponses (s : State) (b : Branch) (f : BranchCounters → BranchCounters) :
    (s.count b f).droppedResponses = s.droppedResponses := rfl
@[simp] theorem State.count_nodes (s : State) (b : Branch) (f : BranchCounters → BranchCounters) :
    (s.count b f).nodes = s.nodes := rfl
@[simp] theorem State.count_pool (s : State) (b : Branch) (f : BranchCounters → BranchCounters) :
    (s.count b f).pool = s.pool := rfl
@[simp] theorem State.count_credits (s : State) (b : Branch) (f : BranchCounters → BranchCounters) :
    (s.count b f).credits = s.credits := rfl
@[simp] theorem State.count_droppedReports (s : State) (b : Branch) (f : BranchCounters → BranchCounters) :
    (s.count b f).droppedReports = s.droppedReports := rfl
@[simp] theorem State.count_relaysDropped (s : State) (b : Branch) (f : BranchCounters → BranchCounters) :
    (s.count b f).relaysDropped = s.relaysDropped := rfl
@[simp] theorem State.count_du (s : State) (b : Branch) (f : BranchCounters → BranchCounters) :
    (s.count b f).du = s.du := rfl
@[simp] theorem State.count_eu (s : State) (b : Branch) (f : BranchCounters → BranchCounters) :
    (s.count b f).eu = s.eu := rfl
@[simp] theorem State.count_pending (s : State) (b : Branch) (f : BranchCounters → BranchCounters) :
    (s.count b f).pending = s.pending := rfl
@[simp] theorem State.count_ticks (s : State) (b : Branch) (f : BranchCounters → BranchCounters) :
    (s.count b f).ticks = s.ticks := rfl
@[simp] theorem State.count_node? (s : State) (b : Branch) (f : BranchCounters → BranchCounters) (m : Nat) :
    (s.count b f).node? m = s.node? m := rfl

@[simp] theorem State.onCycle_strap (s : State) (b : Branch) (f : Cycle → Cycle) :
    (s.onCycle b f).strap = s.strap := rfl
@[simp] theorem State.onCycle_trunkRate (s : State) (b : Branch) (f : Cycle → Cycle) :
    (s.onCycle b f).trunkRate = s.trunkRate := rfl
@[simp] theorem State.onCycle_receiver (s : State) (b : Branch) (f : Cycle → Cycle) :
    (s.onCycle b f).receiver = s.receiver := rfl
@[simp] theorem State.onCycle_rx (s : State) (b : Branch) (f : Cycle → Cycle) : (s.onCycle b f).rx = s.rx := rfl
@[simp] theorem State.onCycle_muTag (s : State) (b : Branch) (f : Cycle → Cycle) :
    (s.onCycle b f).muTag = s.muTag := rfl
@[simp] theorem State.onCycle_droppedResponses (s : State) (b : Branch) (f : Cycle → Cycle) :
    (s.onCycle b f).droppedResponses = s.droppedResponses := rfl
@[simp] theorem State.onCycle_nodes (s : State) (b : Branch) (f : Cycle → Cycle) :
    (s.onCycle b f).nodes = s.nodes := rfl
@[simp] theorem State.onCycle_pool (s : State) (b : Branch) (f : Cycle → Cycle) : (s.onCycle b f).pool = s.pool := rfl
@[simp] theorem State.onCycle_credits (s : State) (b : Branch) (f : Cycle → Cycle) :
    (s.onCycle b f).credits = s.credits := rfl
@[simp] theorem State.onCycle_droppedReports (s : State) (b : Branch) (f : Cycle → Cycle) :
    (s.onCycle b f).droppedReports = s.droppedReports := rfl
@[simp] theorem State.onCycle_relaysDropped (s : State) (b : Branch) (f : Cycle → Cycle) :
    (s.onCycle b f).relaysDropped = s.relaysDropped := rfl
@[simp] theorem State.onCycle_du (s : State) (b : Branch) (f : Cycle → Cycle) : (s.onCycle b f).du = s.du := rfl
@[simp] theorem State.onCycle_eu (s : State) (b : Branch) (f : Cycle → Cycle) : (s.onCycle b f).eu = s.eu := rfl
@[simp] theorem State.onCycle_pending (s : State) (b : Branch) (f : Cycle → Cycle) :
    (s.onCycle b f).pending = s.pending := rfl
@[simp] theorem State.onCycle_ticks (s : State) (b : Branch) (f : Cycle → Cycle) :
    (s.onCycle b f).ticks = s.ticks := rfl
@[simp] theorem State.onCycle_node? (s : State) (b : Branch) (f : Cycle → Cycle) (m : Nat) :
    (s.onCycle b f).node? m = s.node? m := rfl

@[simp] theorem State.onSup_strap (s : State) (b : Branch) (f : Supervisor → Supervisor) :
    (s.onSup b f).strap = s.strap := rfl
@[simp] theorem State.onSup_trunkRate (s : State) (b : Branch) (f : Supervisor → Supervisor) :
    (s.onSup b f).trunkRate = s.trunkRate := rfl
@[simp] theorem State.onSup_receiver (s : State) (b : Branch) (f : Supervisor → Supervisor) :
    (s.onSup b f).receiver = s.receiver := rfl
@[simp] theorem State.onSup_rx (s : State) (b : Branch) (f : Supervisor → Supervisor) : (s.onSup b f).rx = s.rx := rfl
@[simp] theorem State.onSup_muTag (s : State) (b : Branch) (f : Supervisor → Supervisor) :
    (s.onSup b f).muTag = s.muTag := rfl
@[simp] theorem State.onSup_droppedResponses (s : State) (b : Branch) (f : Supervisor → Supervisor) :
    (s.onSup b f).droppedResponses = s.droppedResponses := rfl
@[simp] theorem State.onSup_nodes (s : State) (b : Branch) (f : Supervisor → Supervisor) :
    (s.onSup b f).nodes = s.nodes := rfl
@[simp] theorem State.onSup_pool (s : State) (b : Branch) (f : Supervisor → Supervisor) :
    (s.onSup b f).pool = s.pool := rfl
@[simp] theorem State.onSup_credits (s : State) (b : Branch) (f : Supervisor → Supervisor) :
    (s.onSup b f).credits = s.credits := rfl
@[simp] theorem State.onSup_droppedReports (s : State) (b : Branch) (f : Supervisor → Supervisor) :
    (s.onSup b f).droppedReports = s.droppedReports := rfl
@[simp] theorem State.onSup_relaysDropped (s : State) (b : Branch) (f : Supervisor → Supervisor) :
    (s.onSup b f).relaysDropped = s.relaysDropped := rfl
@[simp] theorem State.onSup_du (s : State) (b : Branch) (f : Supervisor → Supervisor) : (s.onSup b f).du = s.du := rfl
@[simp] theorem State.onSup_eu (s : State) (b : Branch) (f : Supervisor → Supervisor) : (s.onSup b f).eu = s.eu := rfl
@[simp] theorem State.onSup_pending (s : State) (b : Branch) (f : Supervisor → Supervisor) :
    (s.onSup b f).pending = s.pending := rfl
@[simp] theorem State.onSup_ticks (s : State) (b : Branch) (f : Supervisor → Supervisor) :
    (s.onSup b f).ticks = s.ticks := rfl
@[simp] theorem State.onSup_node? (s : State) (b : Branch) (f : Supervisor → Supervisor) (m : Nat) :
    (s.onSup b f).node? m = s.node? m := rfl

@[simp] theorem State.onNode_strap (s : State) (a : Nat) (f : NodeRecord → NodeRecord) :
    (s.onNode a f).strap = s.strap := rfl
@[simp] theorem State.onNode_trunkRate (s : State) (a : Nat) (f : NodeRecord → NodeRecord) :
    (s.onNode a f).trunkRate = s.trunkRate := rfl
@[simp] theorem State.onNode_receiver (s : State) (a : Nat) (f : NodeRecord → NodeRecord) :
    (s.onNode a f).receiver = s.receiver := rfl
@[simp] theorem State.onNode_rx (s : State) (a : Nat) (f : NodeRecord → NodeRecord) : (s.onNode a f).rx = s.rx := rfl
@[simp] theorem State.onNode_muTag (s : State) (a : Nat) (f : NodeRecord → NodeRecord) :
    (s.onNode a f).muTag = s.muTag := rfl
@[simp] theorem State.onNode_droppedResponses (s : State) (a : Nat) (f : NodeRecord → NodeRecord) :
    (s.onNode a f).droppedResponses = s.droppedResponses := rfl
@[simp] theorem State.onNode_branches (s : State) (a : Nat) (f : NodeRecord → NodeRecord) :
    (s.onNode a f).branches = s.branches := rfl
@[simp] theorem State.onNode_pool (s : State) (a : Nat) (f : NodeRecord → NodeRecord) :
    (s.onNode a f).pool = s.pool := rfl
@[simp] theorem State.onNode_credits (s : State) (a : Nat) (f : NodeRecord → NodeRecord) :
    (s.onNode a f).credits = s.credits := rfl
@[simp] theorem State.onNode_droppedReports (s : State) (a : Nat) (f : NodeRecord → NodeRecord) :
    (s.onNode a f).droppedReports = s.droppedReports := rfl
@[simp] theorem State.onNode_relaysDropped (s : State) (a : Nat) (f : NodeRecord → NodeRecord) :
    (s.onNode a f).relaysDropped = s.relaysDropped := rfl
@[simp] theorem State.onNode_du (s : State) (a : Nat) (f : NodeRecord → NodeRecord) : (s.onNode a f).du = s.du := rfl
@[simp] theorem State.onNode_eu (s : State) (a : Nat) (f : NodeRecord → NodeRecord) : (s.onNode a f).eu = s.eu := rfl
@[simp] theorem State.onNode_pending (s : State) (a : Nat) (f : NodeRecord → NodeRecord) :
    (s.onNode a f).pending = s.pending := rfl
@[simp] theorem State.onNode_ticks (s : State) (a : Nat) (f : NodeRecord → NodeRecord) :
    (s.onNode a f).ticks = s.ticks := rfl
@[simp] theorem State.onNode_br (s : State) (a : Nat) (f : NodeRecord → NodeRecord) (d : Branch) :
    (s.onNode a f).br d = s.br d := rfl

@[simp] theorem State.signal_strap (s : State) (b : Branch) (f : BranchFlag) : (s.signal b f).strap = s.strap := rfl
@[simp] theorem State.signal_trunkRate (s : State) (b : Branch) (f : BranchFlag) :
    (s.signal b f).trunkRate = s.trunkRate := rfl
@[simp] theorem State.signal_receiver (s : State) (b : Branch) (f : BranchFlag) :
    (s.signal b f).receiver = s.receiver := rfl
@[simp] theorem State.signal_rx (s : State) (b : Branch) (f : BranchFlag) : (s.signal b f).rx = s.rx := rfl
@[simp] theorem State.signal_muTag (s : State) (b : Branch) (f : BranchFlag) : (s.signal b f).muTag = s.muTag := rfl
@[simp] theorem State.signal_droppedResponses (s : State) (b : Branch) (f : BranchFlag) :
    (s.signal b f).droppedResponses = s.droppedResponses := rfl
@[simp] theorem State.signal_nodes (s : State) (b : Branch) (f : BranchFlag) : (s.signal b f).nodes = s.nodes := rfl
@[simp] theorem State.signal_branches (s : State) (b : Branch) (f : BranchFlag) :
    (s.signal b f).branches = s.branches := rfl
@[simp] theorem State.signal_pool (s : State) (b : Branch) (f : BranchFlag) : (s.signal b f).pool = s.pool := rfl
@[simp] theorem State.signal_credits (s : State) (b : Branch) (f : BranchFlag) :
    (s.signal b f).credits = s.credits := rfl
@[simp] theorem State.signal_droppedReports (s : State) (b : Branch) (f : BranchFlag) :
    (s.signal b f).droppedReports = s.droppedReports := rfl
@[simp] theorem State.signal_relaysDropped (s : State) (b : Branch) (f : BranchFlag) :
    (s.signal b f).relaysDropped = s.relaysDropped := rfl
@[simp] theorem State.signal_du (s : State) (b : Branch) (f : BranchFlag) : (s.signal b f).du = s.du := rfl
@[simp] theorem State.signal_pending (s : State) (b : Branch) (f : BranchFlag) :
    (s.signal b f).pending = s.pending := rfl
@[simp] theorem State.signal_ticks (s : State) (b : Branch) (f : BranchFlag) : (s.signal b f).ticks = s.ticks := rfl
@[simp] theorem State.signal_br (s : State) (b : Branch) (f : BranchFlag) (d : Branch) :
    (s.signal b f).br d = s.br d := rfl
@[simp] theorem State.signal_node? (s : State) (b : Branch) (f : BranchFlag) (m : Nat) :
    (s.signal b f).node? m = s.node? m := rfl

@[simp] theorem State.signalDevice_strap (s : State) (f : DeviceFlag) : (s.signalDevice f).strap = s.strap := rfl
@[simp] theorem State.signalDevice_trunkRate (s : State) (f : DeviceFlag) :
    (s.signalDevice f).trunkRate = s.trunkRate := rfl
@[simp] theorem State.signalDevice_receiver (s : State) (f : DeviceFlag) :
    (s.signalDevice f).receiver = s.receiver := rfl
@[simp] theorem State.signalDevice_rx (s : State) (f : DeviceFlag) : (s.signalDevice f).rx = s.rx := rfl
@[simp] theorem State.signalDevice_muTag (s : State) (f : DeviceFlag) : (s.signalDevice f).muTag = s.muTag := rfl
@[simp] theorem State.signalDevice_droppedResponses (s : State) (f : DeviceFlag) :
    (s.signalDevice f).droppedResponses = s.droppedResponses := rfl
@[simp] theorem State.signalDevice_nodes (s : State) (f : DeviceFlag) : (s.signalDevice f).nodes = s.nodes := rfl
@[simp] theorem State.signalDevice_branches (s : State) (f : DeviceFlag) :
    (s.signalDevice f).branches = s.branches := rfl
@[simp] theorem State.signalDevice_pool (s : State) (f : DeviceFlag) : (s.signalDevice f).pool = s.pool := rfl
@[simp] theorem State.signalDevice_credits (s : State) (f : DeviceFlag) :
    (s.signalDevice f).credits = s.credits := rfl
@[simp] theorem State.signalDevice_droppedReports (s : State) (f : DeviceFlag) :
    (s.signalDevice f).droppedReports = s.droppedReports := rfl
@[simp] theorem State.signalDevice_relaysDropped (s : State) (f : DeviceFlag) :
    (s.signalDevice f).relaysDropped = s.relaysDropped := rfl
@[simp] theorem State.signalDevice_du (s : State) (f : DeviceFlag) : (s.signalDevice f).du = s.du := rfl
@[simp] theorem State.signalDevice_pending (s : State) (f : DeviceFlag) :
    (s.signalDevice f).pending = s.pending := rfl
@[simp] theorem State.signalDevice_ticks (s : State) (f : DeviceFlag) : (s.signalDevice f).ticks = s.ticks := rfl
@[simp] theorem State.signalDevice_br (s : State) (f : DeviceFlag) (d : Branch) :
    (s.signalDevice f).br d = s.br d := rfl
@[simp] theorem State.signalDevice_node? (s : State) (f : DeviceFlag) (m : Nat) :
    (s.signalDevice f).node? m = s.node? m := rfl

@[simp] theorem State.signalNode_strap (s : State) (b : Branch) (f : BranchFlag) (a : Nat) :
    (s.signalNode b f a).strap = s.strap := rfl
@[simp] theorem State.signalNode_trunkRate (s : State) (b : Branch) (f : BranchFlag) (a : Nat) :
    (s.signalNode b f a).trunkRate = s.trunkRate := rfl
@[simp] theorem State.signalNode_receiver (s : State) (b : Branch) (f : BranchFlag) (a : Nat) :
    (s.signalNode b f a).receiver = s.receiver := rfl
@[simp] theorem State.signalNode_rx (s : State) (b : Branch) (f : BranchFlag) (a : Nat) :
    (s.signalNode b f a).rx = s.rx := rfl
@[simp] theorem State.signalNode_muTag (s : State) (b : Branch) (f : BranchFlag) (a : Nat) :
    (s.signalNode b f a).muTag = s.muTag := rfl
@[simp] theorem State.signalNode_droppedResponses (s : State) (b : Branch) (f : BranchFlag) (a : Nat) :
    (s.signalNode b f a).droppedResponses = s.droppedResponses := rfl
@[simp] theorem State.signalNode_nodes (s : State) (b : Branch) (f : BranchFlag) (a : Nat) :
    (s.signalNode b f a).nodes = s.nodes := rfl
@[simp] theorem State.signalNode_branches (s : State) (b : Branch) (f : BranchFlag) (a : Nat) :
    (s.signalNode b f a).branches = s.branches := rfl
@[simp] theorem State.signalNode_pool (s : State) (b : Branch) (f : BranchFlag) (a : Nat) :
    (s.signalNode b f a).pool = s.pool := rfl
@[simp] theorem State.signalNode_credits (s : State) (b : Branch) (f : BranchFlag) (a : Nat) :
    (s.signalNode b f a).credits = s.credits := rfl
@[simp] theorem State.signalNode_droppedReports (s : State) (b : Branch) (f : BranchFlag) (a : Nat) :
    (s.signalNode b f a).droppedReports = s.droppedReports := rfl
@[simp] theorem State.signalNode_relaysDropped (s : State) (b : Branch) (f : BranchFlag) (a : Nat) :
    (s.signalNode b f a).relaysDropped = s.relaysDropped := rfl
@[simp] theorem State.signalNode_du (s : State) (b : Branch) (f : BranchFlag) (a : Nat) :
    (s.signalNode b f a).du = s.du := rfl
@[simp] theorem State.signalNode_pending (s : State) (b : Branch) (f : BranchFlag) (a : Nat) :
    (s.signalNode b f a).pending = s.pending := rfl
@[simp] theorem State.signalNode_ticks (s : State) (b : Branch) (f : BranchFlag) (a : Nat) :
    (s.signalNode b f a).ticks = s.ticks := rfl
@[simp] theorem State.signalNode_br (s : State) (b : Branch) (f : BranchFlag) (a : Nat) (d : Branch) :
    (s.signalNode b f a).br d = s.br d := rfl
@[simp] theorem State.signalNode_node? (s : State) (b : Branch) (f : BranchFlag) (a : Nat) (m : Nat) :
    (s.signalNode b f a).node? m = s.node? m := rfl

@[simp] theorem State.addEntry_strap (s : State) (c : UplinkClass) (p : List Byte) : (s.addEntry c p).strap = s.strap := rfl
@[simp] theorem State.addEntry_trunkRate (s : State) (c : UplinkClass) (p : List Byte) :
    (s.addEntry c p).trunkRate = s.trunkRate := rfl
@[simp] theorem State.addEntry_receiver (s : State) (c : UplinkClass) (p : List Byte) :
    (s.addEntry c p).receiver = s.receiver := rfl
@[simp] theorem State.addEntry_rx (s : State) (c : UplinkClass) (p : List Byte) : (s.addEntry c p).rx = s.rx := rfl
@[simp] theorem State.addEntry_muTag (s : State) (c : UplinkClass) (p : List Byte) : (s.addEntry c p).muTag = s.muTag := rfl
@[simp] theorem State.addEntry_droppedResponses (s : State) (c : UplinkClass) (p : List Byte) :
    (s.addEntry c p).droppedResponses = s.droppedResponses := rfl
@[simp] theorem State.addEntry_nodes (s : State) (c : UplinkClass) (p : List Byte) : (s.addEntry c p).nodes = s.nodes := rfl
@[simp] theorem State.addEntry_branches (s : State) (c : UplinkClass) (p : List Byte) :
    (s.addEntry c p).branches = s.branches := rfl
@[simp] theorem State.addEntry_credits (s : State) (c : UplinkClass) (p : List Byte) :
    (s.addEntry c p).credits = s.credits := rfl
@[simp] theorem State.addEntry_droppedReports (s : State) (c : UplinkClass) (p : List Byte) :
    (s.addEntry c p).droppedReports = s.droppedReports := rfl
@[simp] theorem State.addEntry_relaysDropped (s : State) (c : UplinkClass) (p : List Byte) :
    (s.addEntry c p).relaysDropped = s.relaysDropped := rfl
@[simp] theorem State.addEntry_du (s : State) (c : UplinkClass) (p : List Byte) : (s.addEntry c p).du = s.du := rfl
@[simp] theorem State.addEntry_eu (s : State) (c : UplinkClass) (p : List Byte) : (s.addEntry c p).eu = s.eu := rfl
@[simp] theorem State.addEntry_pending (s : State) (c : UplinkClass) (p : List Byte) :
    (s.addEntry c p).pending = s.pending := rfl
@[simp] theorem State.addEntry_ticks (s : State) (c : UplinkClass) (p : List Byte) : (s.addEntry c p).ticks = s.ticks := rfl
@[simp] theorem State.addEntry_br (s : State) (c : UplinkClass) (p : List Byte) (d : Branch) :
    (s.addEntry c p).br d = s.br d := rfl
@[simp] theorem State.addEntry_node? (s : State) (c : UplinkClass) (p : List Byte) (m : Nat) :
    (s.addEntry c p).node? m = s.node? m := rfl

@[simp] theorem State.reserve_strap (s : State) : s.reserve.strap = s.strap := rfl
@[simp] theorem State.reserve_trunkRate (s : State) : s.reserve.trunkRate = s.trunkRate := rfl
@[simp] theorem State.reserve_receiver (s : State) : s.reserve.receiver = s.receiver := rfl
@[simp] theorem State.reserve_rx (s : State) : s.reserve.rx = s.rx := rfl
@[simp] theorem State.reserve_muTag (s : State) : s.reserve.muTag = s.muTag := rfl
@[simp] theorem State.reserve_droppedResponses (s : State) : s.reserve.droppedResponses = s.droppedResponses := rfl
@[simp] theorem State.reserve_nodes (s : State) : s.reserve.nodes = s.nodes := rfl
@[simp] theorem State.reserve_branches (s : State) : s.reserve.branches = s.branches := rfl
@[simp] theorem State.reserve_pool (s : State) : s.reserve.pool = s.pool := rfl
@[simp] theorem State.reserve_droppedReports (s : State) : s.reserve.droppedReports = s.droppedReports := rfl
@[simp] theorem State.reserve_relaysDropped (s : State) : s.reserve.relaysDropped = s.relaysDropped := rfl
@[simp] theorem State.reserve_du (s : State) : s.reserve.du = s.du := rfl
@[simp] theorem State.reserve_eu (s : State) : s.reserve.eu = s.eu := rfl
@[simp] theorem State.reserve_pending (s : State) : s.reserve.pending = s.pending := rfl
@[simp] theorem State.reserve_ticks (s : State) : s.reserve.ticks = s.ticks := rfl
@[simp] theorem State.reserve_br (s : State) (d : Branch) : s.reserve.br d = s.br d := rfl
@[simp] theorem State.reserve_node? (s : State) (m : Nat) : s.reserve.node? m = s.node? m := rfl

@[simp] theorem State.convert_strap (s : State) (t : Byte) (n : Nat) (st : ResultStatus) (r : List Byte) :
    (s.convert t n st r).strap = s.strap := rfl
@[simp] theorem State.convert_trunkRate (s : State) (t : Byte) (n : Nat) (st : ResultStatus) (r : List Byte) :
    (s.convert t n st r).trunkRate = s.trunkRate := rfl
@[simp] theorem State.convert_receiver (s : State) (t : Byte) (n : Nat) (st : ResultStatus) (r : List Byte) :
    (s.convert t n st r).receiver = s.receiver := rfl
@[simp] theorem State.convert_rx (s : State) (t : Byte) (n : Nat) (st : ResultStatus) (r : List Byte) :
    (s.convert t n st r).rx = s.rx := rfl
@[simp] theorem State.convert_muTag (s : State) (t : Byte) (n : Nat) (st : ResultStatus) (r : List Byte) :
    (s.convert t n st r).muTag = s.muTag := rfl
@[simp] theorem State.convert_droppedResponses (s : State) (t : Byte) (n : Nat) (st : ResultStatus) (r : List Byte) :
    (s.convert t n st r).droppedResponses = s.droppedResponses := rfl
@[simp] theorem State.convert_nodes (s : State) (t : Byte) (n : Nat) (st : ResultStatus) (r : List Byte) :
    (s.convert t n st r).nodes = s.nodes := rfl
@[simp] theorem State.convert_branches (s : State) (t : Byte) (n : Nat) (st : ResultStatus) (r : List Byte) :
    (s.convert t n st r).branches = s.branches := rfl
@[simp] theorem State.convert_droppedReports (s : State) (t : Byte) (n : Nat) (st : ResultStatus) (r : List Byte) :
    (s.convert t n st r).droppedReports = s.droppedReports := rfl
@[simp] theorem State.convert_relaysDropped (s : State) (t : Byte) (n : Nat) (st : ResultStatus) (r : List Byte) :
    (s.convert t n st r).relaysDropped = s.relaysDropped := rfl
@[simp] theorem State.convert_du (s : State) (t : Byte) (n : Nat) (st : ResultStatus) (r : List Byte) :
    (s.convert t n st r).du = s.du := rfl
@[simp] theorem State.convert_eu (s : State) (t : Byte) (n : Nat) (st : ResultStatus) (r : List Byte) :
    (s.convert t n st r).eu = s.eu := rfl
@[simp] theorem State.convert_pending (s : State) (t : Byte) (n : Nat) (st : ResultStatus) (r : List Byte) :
    (s.convert t n st r).pending = s.pending := rfl
@[simp] theorem State.convert_ticks (s : State) (t : Byte) (n : Nat) (st : ResultStatus) (r : List Byte) :
    (s.convert t n st r).ticks = s.ticks := rfl
@[simp] theorem State.convert_br (s : State) (t : Byte) (n : Nat) (st : ResultStatus) (r : List Byte) (d : Branch) :
    (s.convert t n st r).br d = s.br d := rfl
@[simp] theorem State.convert_node? (s : State) (t : Byte) (n : Nat) (st : ResultStatus) (r : List Byte) (m : Nat) :
    (s.convert t n st r).node? m = s.node? m := rfl

@[simp] theorem State.notice_strap (s : State) (t : Byte) (n : Nat) (st : ResultStatus) :
    (s.notice t n st).strap = s.strap := rfl
@[simp] theorem State.notice_trunkRate (s : State) (t : Byte) (n : Nat) (st : ResultStatus) :
    (s.notice t n st).trunkRate = s.trunkRate := rfl
@[simp] theorem State.notice_receiver (s : State) (t : Byte) (n : Nat) (st : ResultStatus) :
    (s.notice t n st).receiver = s.receiver := rfl
@[simp] theorem State.notice_rx (s : State) (t : Byte) (n : Nat) (st : ResultStatus) :
    (s.notice t n st).rx = s.rx := rfl
@[simp] theorem State.notice_muTag (s : State) (t : Byte) (n : Nat) (st : ResultStatus) :
    (s.notice t n st).muTag = s.muTag := rfl
@[simp] theorem State.notice_droppedResponses (s : State) (t : Byte) (n : Nat) (st : ResultStatus) :
    (s.notice t n st).droppedResponses = s.droppedResponses := rfl
@[simp] theorem State.notice_nodes (s : State) (t : Byte) (n : Nat) (st : ResultStatus) :
    (s.notice t n st).nodes = s.nodes := rfl
@[simp] theorem State.notice_branches (s : State) (t : Byte) (n : Nat) (st : ResultStatus) :
    (s.notice t n st).branches = s.branches := rfl
@[simp] theorem State.notice_credits (s : State) (t : Byte) (n : Nat) (st : ResultStatus) :
    (s.notice t n st).credits = s.credits := rfl
@[simp] theorem State.notice_droppedReports (s : State) (t : Byte) (n : Nat) (st : ResultStatus) :
    (s.notice t n st).droppedReports = s.droppedReports := rfl
@[simp] theorem State.notice_relaysDropped (s : State) (t : Byte) (n : Nat) (st : ResultStatus) :
    (s.notice t n st).relaysDropped = s.relaysDropped := rfl
@[simp] theorem State.notice_du (s : State) (t : Byte) (n : Nat) (st : ResultStatus) :
    (s.notice t n st).du = s.du := rfl
@[simp] theorem State.notice_eu (s : State) (t : Byte) (n : Nat) (st : ResultStatus) :
    (s.notice t n st).eu = s.eu := rfl
@[simp] theorem State.notice_pending (s : State) (t : Byte) (n : Nat) (st : ResultStatus) :
    (s.notice t n st).pending = s.pending := rfl
@[simp] theorem State.notice_ticks (s : State) (t : Byte) (n : Nat) (st : ResultStatus) :
    (s.notice t n st).ticks = s.ticks := rfl
@[simp] theorem State.notice_br (s : State) (t : Byte) (n : Nat) (st : ResultStatus) (d : Branch) :
    (s.notice t n st).br d = s.br d := rfl
@[simp] theorem State.notice_node? (s : State) (t : Byte) (n : Nat) (st : ResultStatus) (m : Nat) :
    (s.notice t n st).node? m = s.node? m := rfl

end Sys2Proof.Machine
end

