-- ==== Sys2Proof/Laws/Delivery.lean ====
section
/-! SUPPORT. What the Delivery Unit can do: the oldest entry of a class found and marked SENT, the five outcomes of a
choice, and what none of its operations touches. -/
namespace Sys2Proof.Machine

/-! ### The oldest QUEUED entry of a class -/

/-- An entry that waits in a class. -/
def Entry.waits (c : UplinkClass) (e : Entry) : Prop := e.state = .queued ∧ e.cls = c

/-- The entry marked is the first of the list that waits in the class; its place is kept (R116, R140). -/
theorem markSent_some {c : UplinkClass} {q : BitVec 4} {l m : List Entry} {e : Entry}
    (h : markSent c q l = some (e, m)) :
    ∃ pre post, l = pre ++ e :: post ∧ m = pre ++ { e with state := .sent q } :: post ∧ e.waits c ∧
      ∀ x ∈ pre, ¬ x.waits c := by
  induction l generalizing m with
  | nil => simp [markSent] at h
  | cons x rest ih =>
    unfold markSent at h
    split at h
    · cases h
      exact ⟨[], rest, rfl, rfl, ‹_›, by simp⟩
    · rename_i hx
      rcases hm : markSent c q rest with _ | ⟨e', m'⟩
      · simp [hm] at h
      · simp only [hm, Option.map_some, Option.some.injEq, Prod.mk.injEq] at h
        obtain ⟨rfl, rfl⟩ := h
        obtain ⟨pre, post, h1, h2, h3, h4⟩ := ih hm
        refine ⟨x :: pre, post, by simp [h1], by simp [h2], h3, fun y hy => ?_⟩
        rcases List.mem_cons.1 hy with rfl | hy
        · exact hx
        · exact h4 y hy

theorem markSent_none {c : UplinkClass} {q : BitVec 4} {l : List Entry} :
    markSent c q l = none ↔ ∀ e ∈ l, ¬ e.waits c := by
  induction l with
  | nil => simp [markSent]
  | cons x rest ih =>
    unfold markSent
    split
    · rename_i hx
      exact ⟨fun h => by simp at h, fun h => absurd hx (h x List.mem_cons_self)⟩
    · rename_i hx
      rw [Option.map_eq_none_iff, ih]
      exact ⟨fun h y hy => (List.mem_cons.1 hy).elim (fun e => e ▸ hx) (h y), fun h y hy => h y (List.mem_cons_of_mem _ hy)⟩

/-- A first transmission is made exactly where an entry waits in the class (R140). -/
theorem State.firstTransmission_none {s : State} {c : UplinkClass} :
    s.firstTransmission c = none ↔ ∀ e ∈ s.pool, ¬ e.waits c := by
  unfold State.firstTransmission
  rw [← markSent_none (q := s.du.nextSeq)]
  split <;> simp_all

/-- What a first transmission does (R137, R140, R146). -/
theorem State.firstTransmission_some {s t : State} {c : UplinkClass} (h : s.firstTransmission c = some t) :
    ∃ pre e post, s.pool = pre ++ e :: post ∧ e.waits c ∧ (∀ x ∈ pre, ¬ x.waits c) ∧
      t = { s with
        pool := pre ++ { e with state := .sent s.du.nextSeq } :: post
        du := { s.du with
          nextSeq := s.du.nextSeq + 1
          timer := if s.sentCount = 0 then some 0 else s.du.timer
          transmitter := some (s.uplinkFrame e s.du.nextSeq)
          framesSent := bump s.du.framesSent } } := by
  unfold State.firstTransmission at h
  split at h
  · cases h
  · rename_i e m hm
    obtain ⟨pre, post, h1, rfl, h3, h4⟩ := markSent_some hm
    exact ⟨pre, e, post, h1, h3, h4, (Option.some.inj h).symm⟩

/-! ### The choice -/

/-- The arbiter's five outcomes: nothing, a resend, a first transmission from the pool, an ALERT, and never more than one
of them (R139). -/
theorem State.arbiter_cases (s : State) :
    s.arbiter = s ∨
    (∃ point, s.du.round = some point ∧ s.arbiter = s.resend point) ∨
    (∃ c, c ≠ .alert ∧ s.du.round = none ∧ s.sentCount < s.du.window ∧ s.firstTransmission c = some s.arbiter) ∨
    (s.du.round = none ∧ s.sentCount < s.du.window ∧ s.sendAlert = some s.arbiter) := by
  unfold State.arbiter
  split
  · exact .inr (.inl ⟨_, ‹_›, rfl⟩)
  · rename_i hround
    split
    · exact .inl rfl
    · rename_i hwin
      have hwin : s.sentCount < s.du.window := by omega
      split
      · exact .inr (.inr (.inl ⟨.mgmtResp, by decide, hround, hwin, by simp [*]⟩))
      · split
        · exact .inr (.inr (.inr ⟨hround, hwin, by simp [*]⟩))
        · split
          · exact .inr (.inr (.inl ⟨.result, by decide, hround, hwin, by simp [*]⟩))
          · rcases hr : s.firstTransmission .report with _ | t
            · exact .inl rfl
            · exact .inr (.inr (.inl ⟨.report, by decide, hround, hwin, by simp [hr]⟩))

/-- With the transmitter busy or the trunk DOWN there is no choice (R138). -/
theorem State.choice_idle {s : State} (h : s.du.transmitter ≠ none ∨ s.du.trunk = .down) : s.choice = s := by
  unfold State.choice
  rw [if_neg]
  rintro ⟨h1, h2⟩
  rcases h with h | h
  · exact h h1
  · exact h2 h

/-- With the transmitter free and the trunk UP or RETRYING the arbiter chooses (R138). -/
theorem State.choice_free {s : State} (h : s.du.transmitter = none) (k : s.du.trunk ≠ .down) : s.choice = s.arbiter := by
  unfold State.choice
  rw [if_pos ⟨h, k⟩]

/-! ### What the Delivery Unit does not touch -/

/-- `t` is `s` after work of the Delivery Unit: the pool's entries, its own state and the Event Unit's marks and flags
may change, and nothing else (R136). -/
structure DeliveryStep (s t : State) : Prop where
  strap            : t.strap = s.strap
  trunkRate        : t.trunkRate = s.trunkRate
  receiver         : t.receiver = s.receiver
  rx               : t.rx = s.rx
  muTag            : t.muTag = s.muTag
  droppedResponses : t.droppedResponses = s.droppedResponses
  nodes            : t.nodes = s.nodes
  branches         : t.branches = s.branches
  credits          : t.credits = s.credits
  droppedReports   : t.droppedReports = s.droppedReports
  relaysDropped    : t.relaysDropped = s.relaysDropped
  pending          : t.pending = s.pending
  ticks            : t.ticks = s.ticks
  window           : t.du.window = s.du.window
  timeout          : t.du.timeout = s.du.timeout
  failLimit        : t.du.failLimit = s.du.failLimit
  lastNode         : t.eu.lastNode = s.eu.lastNode
  cause            : t.eu.cause = s.eu.cause
  enables          : ∀ g, (t.eu.group g).enables = (s.eu.group g).enables

variable {s t u : State}

theorem DeliveryStep.rfl : DeliveryStep s s :=
  ⟨.refl _, .refl _, .refl _, .refl _, .refl _, .refl _, .refl _, .refl _, .refl _, .refl _, .refl _, .refl _, .refl _,
    .refl _, .refl _, .refl _, .refl _, .refl _, fun _ => .refl _⟩

theorem DeliveryStep.trans (h : DeliveryStep s t) (k : DeliveryStep t u) : DeliveryStep s u :=
  ⟨k.strap.trans h.strap, k.trunkRate.trans h.trunkRate, k.receiver.trans h.receiver, k.rx.trans h.rx,
    k.muTag.trans h.muTag, k.droppedResponses.trans h.droppedResponses, k.nodes.trans h.nodes,
    k.branches.trans h.branches, k.credits.trans h.credits, k.droppedReports.trans h.droppedReports,
    k.relaysDropped.trans h.relaysDropped, k.pending.trans h.pending, k.ticks.trans h.ticks, k.window.trans h.window,
    k.timeout.trans h.timeout, k.failLimit.trans h.failLimit, k.lastNode.trans h.lastNode, k.cause.trans h.cause,
    fun g => (k.enables g).trans (h.enables g)⟩

/-- A change of the pool and of the Delivery Unit alone, its settings kept, is a step of the Delivery Unit. -/
theorem deliveryStep_of {pool : List Entry} {du : Delivery} (h : du.window = s.du.window)
    (k : du.timeout = s.du.timeout) (l : du.failLimit = s.du.failLimit) :
    DeliveryStep s { s with pool := pool, du := du } :=
  { DeliveryStep.rfl (s := s) with window := h, timeout := k, failLimit := l, enables := fun _ => .refl _ }

theorem deliveryStep_firstTransmission {c : UplinkClass} (h : s.firstTransmission c = some t) : DeliveryStep s t := by
  obtain ⟨_, _, _, _, _, _, rfl⟩ := State.firstTransmission_some h
  exact deliveryStep_of rfl rfl rfl

theorem EventUnit.told_enables (eu : EventUnit) (g : Group) : (eu.told.group g).enables = (eu.group g).enables := by
  cases g with
  | branch b => cases b <;> rfl
  | device => rfl

theorem deliveryStep_sendAlert (h : s.sendAlert = some t) : DeliveryStep s t := by
  unfold State.sendAlert at h
  split at h
  · exact DeliveryStep.trans
      (t := { s.addEntry .alert s.eu.snapshot with eu := s.eu.told })
      { DeliveryStep.rfl (s := s) with
        window := rfl, timeout := rfl, failLimit := rfl, enables := s.eu.told_enables }
      (deliveryStep_firstTransmission h)
  · cases h

theorem deliveryStep_resend (point : BitVec 4) : DeliveryStep s (s.resend point) := by
  unfold State.resend
  split
  · exact .rfl
  · exact deliveryStep_of (pool := s.pool) rfl rfl rfl

theorem deliveryStep_arbiter : DeliveryStep s s.arbiter := by
  rcases s.arbiter_cases with h | ⟨p, _, h⟩ | ⟨c, _, _, _, h⟩ | ⟨_, _, h⟩
  · rw [h]; exact .rfl
  · rw [h]; exact deliveryStep_resend p
  · exact deliveryStep_firstTransmission h
  · exact deliveryStep_sendAlert h

theorem deliveryStep_choice : DeliveryStep s s.choice := by
  unfold State.choice
  split
  · exact deliveryStep_arbiter
  · exact .rfl

theorem deliveryStep_signalDevice (f : DeviceFlag) : DeliveryStep s (s.signalDevice f) :=
  { DeliveryStep.rfl (s := s) with
    window := rfl, timeout := rfl, failLimit := rfl
    enables := fun g => by
      cases g with
      | branch b => rfl
      | device =>
        show (s.eu.device.raise f.mask).enables = s.eu.device.enables
        unfold FlagGroup.raise
        split <;> rfl }

theorem deliveryStep_recover : DeliveryStep s s.recover := by
  unfold State.recover
  split
  · exact .rfl
  · exact .rfl
  · dsimp only
    refine DeliveryStep.trans ?_ deliveryStep_choice
    refine DeliveryStep.trans (DeliveryStep.trans (deliveryStep_of (pool := s.pool)
      (du := { s.du with trunk := .up, timeoutCount := 0 }) rfl rfl rfl)
      (deliveryStep_signalDevice .trunkRecovered)) ?_
    split
    · exact .rfl
    · exact deliveryStep_of (pool := _) rfl rfl rfl

theorem deliveryStep_takeAck (next : Byte) (payload : List Byte) : DeliveryStep s (s.takeAck next payload) := by
  have stale : DeliveryStep s s.staleAck := deliveryStep_of (pool := s.pool) rfl rfl rfl
  unfold State.takeAck
  dsimp only
  split
  · exact stale
  · split
    · exact .rfl
    · split
      · exact .rfl
      · split
        · exact deliveryStep_of rfl rfl rfl
        · exact stale

theorem deliveryStep_expire : DeliveryStep s s.expire := by
  unfold State.expire
  dsimp only
  split <;> exact deliveryStep_of (pool := s.pool) rfl rfl rfl

/-- What a row that is a good frame leaves untouched by the Delivery Unit is what its block leaves. -/
theorem State.goodFrame_eq (s : State) (act : State → State) :
    s.goodFrame act =
      (act (State.recover { s with receiver := .hunting, rx := { s.rx with good := bump s.rx.good } })).choice := rfl

end Sys2Proof.Machine
end

