-- ==== Sys2Proof/Laws/Nodes.lean ====
section
/-! SUPPORT. The node table as a map: what its five operations find and keep, and which changes of a record leave it in
a row of R21. -/
namespace Sys2Proof.Machine

/-! ### The table -/

theorem findNode_some {a : Nat} {l : List NodeRecord} {r : NodeRecord} (h : findNode a l = some r) :
    r ∈ l ∧ r.address = a := by
  induction l with
  | nil => simp [findNode] at h
  | cons q rest ih =>
    unfold findNode at h
    split at h
    · cases h; exact ⟨List.mem_cons_self, ‹_›⟩
    · exact ⟨List.mem_cons_of_mem _ (ih h).1, (ih h).2⟩

theorem findNode_isSome {a : Nat} {l : List NodeRecord} :
    (findNode a l).isSome = true ↔ a ∈ l.map (·.address) := by
  induction l with
  | nil => simp [findNode]
  | cons q rest ih =>
    unfold findNode
    split
    · simp [*]
    · simp only [ih, List.map_cons, List.mem_cons]
      exact ⟨.inr, fun h => h.resolve_left fun e => ‹¬_› e.symm⟩

/-- A record of the changed table is one of the table before, or the one found, changed. -/
theorem mem_updateNode {a : Nat} {f : NodeRecord → NodeRecord} {l : List NodeRecord} {q : NodeRecord}
    (h : q ∈ updateNode a f l) : q ∈ l ∨ ∃ r, findNode a l = some r ∧ q = f r := by
  induction l with
  | nil => simp [updateNode] at h
  | cons r rest ih =>
    unfold updateNode at h
    split at h
    · rcases List.mem_cons.1 h with rfl | h
      · exact .inr ⟨r, by simp [findNode, *], rfl⟩
      · exact .inl (List.mem_cons_of_mem _ h)
    · rename_i hne
      rcases List.mem_cons.1 h with rfl | h
      · exact .inl List.mem_cons_self
      · rcases ih h with h | ⟨r', h, e⟩
        · exact .inl (List.mem_cons_of_mem _ h)
        · exact .inr ⟨r', by simp [findNode, hne, h], e⟩

/-- A view that the change keeps is the same all along the table. -/
theorem map_updateNode {α : Type} (g : NodeRecord → α) {a : Nat} {f : NodeRecord → NodeRecord} {l : List NodeRecord}
    (h : ∀ r, findNode a l = some r → g (f r) = g r) : (updateNode a f l).map g = l.map g := by
  induction l with
  | nil => rfl
  | cons r rest ih =>
    unfold updateNode
    split
    · simp [h r (by simp [findNode, *])]
    · rename_i hne
      simp only [List.map_cons, ih fun r' h' => h r' (by simp [findNode, hne, h'])]

theorem findNode_updateNode_same {a : Nat} {f : NodeRecord → NodeRecord} {l : List NodeRecord} {r : NodeRecord}
    (h : findNode a l = some r) (hf : (f r).address = a) : findNode a (updateNode a f l) = some (f r) := by
  induction l with
  | nil => simp [findNode] at h
  | cons q rest ih =>
    unfold findNode at h
    unfold updateNode
    split at h
    · cases h; simp [findNode, *]
    · rename_i hne; simp only [hne, if_false, findNode]; exact ih h

theorem findNode_updateNode_other {a b : Nat} {f : NodeRecord → NodeRecord} {l : List NodeRecord} (hab : b ≠ a)
    (hf : ∀ r, findNode a l = some r → (f r).address = r.address) :
    findNode b (updateNode a f l) = findNode b l := by
  induction l with
  | nil => rfl
  | cons q rest ih =>
    unfold updateNode
    split
    · rename_i e
      have h := hf q (by simp [findNode, e])
      simp only [findNode, h, e, hab.symm, if_false]
    · rename_i hne
      simp only [findNode]
      rw [ih fun r h => hf r (by simp [findNode, hne, h])]

theorem mem_insertNode {r q : NodeRecord} {l : List NodeRecord} : q ∈ insertNode r l ↔ q = r ∨ q ∈ l := by
  induction l with
  | nil => simp [insertNode]
  | cons p rest ih =>
    unfold insertNode
    split
    · simp
    · simp only [List.mem_cons, ih]; tauto

theorem length_insertNode (r : NodeRecord) (l : List NodeRecord) : (insertNode r l).length = l.length + 1 := by
  induction l with
  | nil => rfl
  | cons p rest ih => unfold insertNode; split <;> simp [ih]

/-- A record put into an ascending table that does not hold its address leaves it ascending. -/
theorem ascending_insertNode {r : NodeRecord} {l : List NodeRecord}
    (h : l.Pairwise fun q p => q.address < p.address) (hr : findNode r.address l = none) :
    (insertNode r l).Pairwise fun q p => q.address < p.address := by
  induction l with
  | nil => simp [insertNode]
  | cons p rest ih =>
    have hne : ¬ p.address = r.address := by intro e; simp [findNode, e] at hr
    have hr' : findNode r.address rest = none := by simpa [findNode, hne] using hr
    have hp := List.pairwise_cons.1 h
    unfold insertNode
    split
    · rename_i hlt
      refine List.pairwise_cons.2 ⟨?_, h⟩
      intro q hq
      rcases List.mem_cons.1 hq with rfl | hq
      · exact hlt
      · exact lt_trans hlt (hp.1 q hq)
    · rename_i hlt
      refine List.pairwise_cons.2 ⟨?_, ih hp.2 hr'⟩
      intro q hq
      rcases mem_insertNode.1 hq with rfl | hq
      · omega
      · exact hp.1 q hq

theorem removeNode_sublist (a : Nat) (l : List NodeRecord) : (removeNode a l).Sublist l := by
  induction l with
  | nil => exact .slnil
  | cons r rest ih =>
    unfold removeNode
    split
    · exact List.sublist_cons_self _ _
    · exact ih.cons_cons _

/-- An ascending table without the record of an address finds nothing at that address. -/
theorem findNode_removeNode_same {a : Nat} {l : List NodeRecord}
    (h : l.Pairwise fun q p => q.address < p.address) : findNode a (removeNode a l) = none := by
  induction l with
  | nil => rfl
  | cons r rest ih =>
    have hp := List.pairwise_cons.1 h
    unfold removeNode
    split
    · rename_i e
      rcases hf : findNode a rest with _ | q
      · rfl
      · have hq := findNode_some hf
        have := hp.1 q hq.1
        omega
    · rename_i hne; simpa [findNode, hne] using ih hp.2

theorem findNode_removeNode_other {a b : Nat} (h : b ≠ a) (l : List NodeRecord) :
    findNode b (removeNode a l) = findNode b l := by
  induction l with
  | nil => rfl
  | cons r rest ih =>
    unfold removeNode
    split
    · rename_i e; simp [findNode, e, h.symm]
    · simp [findNode, ih]

/-! ### Records -/

theorem NodeRecord.Ok.afterOk {r : NodeRecord} (h : r.Ok) (ha : r.health ≠ .inactive) : r.afterOk.Ok where
  address := h.address
  threshold := h.threshold
  divisor := h.divisor
  reportPeriod := h.reportPeriod
  compareLength := h.compareLength
  lifetime := h.lifetime
  pollsSince := h.pollsSince
  inactive := by simpa [NodeRecord.afterOk] using fun e => ha (h.inactive.2 e)
  offline := by have := h.threshold; simp [NodeRecord.afterOk]; omega
  suspect := by simp [NodeRecord.afterOk]
  fresh := fun _ => rfl
  countdown := by simp [NodeRecord.afterOk]

theorem NodeRecord.Ok.afterFailure {r : NodeRecord} (h : r.Ok) : r.afterFailure.Ok := by
  obtain ⟨h1, h2, h3, h4, h5, h6, h7, h8, h9, h10, h11, h12⟩ := h
  unfold NodeRecord.afterFailure
  rcases r with ⟨ad, br, ac, th, di, rm, rp, cl, li, he, mi, co, ps, tg, lv, ok, tm⟩
  cases he <;> simp at h1 h2 h3 h4 h5 h6 h7 h8 h9 h10 h11 h12 ⊢
  · exact ⟨h1, h2, h3, h4, h5, h6, h7, by simp [h8], by simp; omega, by simp; omega, by simp; omega, by simp; omega⟩
  · split <;> refine ⟨h1, h2, h3, h4, h5, h6, h7, ?_, ?_, ?_, ?_, ?_⟩ <;> simp_all <;> omega
  · split <;> refine ⟨h1, h2, h3, h4, h5, h6, h7, ?_, ?_, ?_, ?_, ?_⟩ <;> simp_all <;> omega
  · exact ⟨h1, h2, h3, h4, h5, h6, h7, by simp [h8], by simp; omega, by simp; omega, by simp, by simp; omega⟩

/-- A change that keeps every field R21 and the ranges speak of leaves a record as it should be. -/
theorem NodeRecord.Ok.same {r q : NodeRecord} (h : r.Ok) (ad : q.address = r.address) (ac : q.active = r.active)
    (th : q.threshold = r.threshold) (di : q.divisor = r.divisor) (rp : q.reportPeriod = r.reportPeriod)
    (cl : q.compareLength = r.compareLength) (li : q.lifetime = r.lifetime) (he : q.health = r.health)
    (mi : q.misses = r.misses) (co : q.countdown = r.countdown) (ps : q.pollsSince ≤ 255) : q.Ok := by
  obtain ⟨h1, h2, h3, h4, h5, h6, h7, h8, h9, h10, h11, h12⟩ := h
  exact ⟨by rwa [ad], by rwa [th], by rwa [di], by rwa [rp], by rwa [cl], by rwa [li], ps, by rwa [he, ac],
    by rwa [he, mi, th], by rwa [he, mi, th], by rwa [he, mi], by rwa [he, co]⟩

/-- A record whose health fields are set afresh, in a state its active field decides (R28, R37, R40). -/
theorem NodeRecord.Ok.refreshed {r q : NodeRecord} (h : r.Ok) (ad : q.address = r.address) (ac : q.active = r.active)
    (th : q.threshold = r.threshold) (di : q.divisor = r.divisor) (rp : q.reportPeriod = r.reportPeriod)
    (cl : q.compareLength = r.compareLength) (li : q.lifetime = r.lifetime) (he : q.health = freshHealth r.active)
    (mi : q.misses = 0) (co : q.countdown = 0) (ps : q.pollsSince = 0) : q.Ok := by
  obtain ⟨h1, h2, h3, h4, h5, h6, -, -, -, -, -, -⟩ := h
  refine ⟨by rwa [ad], by rwa [th], by rwa [di], by rwa [rp], by rwa [cl], by rwa [li], by omega, ?_, ?_, ?_,
    fun _ => mi, ?_⟩ <;> rw [he] <;> cases hact : r.active <;> simp [freshHealth, ac, hact, mi, co] <;> omega

theorem NodeRecord.Ok.restarted {r : NodeRecord} (h : r.Ok) : r.restarted.Ok :=
  h.refreshed rfl rfl rfl rfl rfl rfl rfl rfl rfl rfl rfl

theorem NodeRecord.Ok.healthReset {r : NodeRecord} (h : r.Ok) : r.healthReset.Ok :=
  h.refreshed rfl rfl rfl rfl rfl rfl rfl rfl rfl rfl rfl

end Sys2Proof.Machine
end

