-- ==== Sys2Proof/Laws/Answers.lean ====
section
/-! SUPPORT. What a good frame and an answered request come to, and the lookups by branch, group and address that the
requests begin with. -/
namespace Sys2Proof.Machine

/-! ### Good frames and answers -/

/-- A good frame is acted on by its block once it has arrived, and the Delivery Unit then chooses (R13, R138). -/
theorem State.goodFrame_arrived (s : State) (act : State → State) : s.goodFrame act = (act s.arrived).choice := rfl

/-- The arrival of a good frame is work of the Delivery Unit, after its count (R12, R13, R151). -/
theorem deliveryStep_arrived (s : State) :
    DeliveryStep { s with receiver := .hunting, rx := { s.rx with good := bump s.rx.good } } s.arrived :=
  deliveryStep_recover

@[simp] theorem State.arrived_nodes (s : State) : s.arrived.nodes = s.nodes := (deliveryStep_arrived s).nodes

@[simp] theorem State.arrived_branches (s : State) : s.arrived.branches = s.branches := (deliveryStep_arrived s).branches

@[simp] theorem State.arrived_credits (s : State) : s.arrived.credits = s.credits := (deliveryStep_arrived s).credits

@[simp] theorem State.arrived_pending (s : State) : s.arrived.pending = s.pending := (deliveryStep_arrived s).pending

@[simp] theorem State.arrived_ticks (s : State) : s.arrived.ticks = s.ticks := (deliveryStep_arrived s).ticks

@[simp] theorem State.arrived_receiver (s : State) : s.arrived.receiver = .hunting := (deliveryStep_arrived s).receiver

/-- A request frame is answered with what the request makes of the part that holds its tag (R157, R158). -/
theorem State.requestFrame_answered (s : State) (tag : Byte) (f : State → State × Reply) :
    s.requestFrame tag f =
      (f (s.inHand tag)).1.answered tag (f (s.inHand tag)).2.status (f (s.inHand tag)).2.data := rfl

/-- The tag in hand does not reach the answer of a request that changes nothing else (R158). -/
theorem State.inHand_answered (s : State) (tag : Byte) (status : Status) (data : List Byte) :
    (s.inHand tag).answered tag status data = s.arrived.answered tag status data := by
  simp only [State.answered, State.respond]
  split
  · rename_i h
    rw [if_pos (by exact h)]; rfl
  · rename_i h
    rw [if_neg (by exact h)]; rfl

/-- A read whose key is in range is answered by its item and selector (R160). -/
theorem plainRead_answered (s : State) (tag item selector : Byte) (data : List Byte) :
    (s.inHand tag).answered tag (plainRead 0 item selector data).status (plainRead 0 item selector data).data =
      s.arrived.answeredPlain tag item selector data := by
  unfold plainRead State.answeredPlain
  rw [State.inHand_answered]
  by_cases hi : item = 0
  · subst hi
    by_cases hs : selector = 0
    · subst hs; rfl
    · rw [if_neg (fun h => h.elim (fun e => e rfl) (fun e => e rfl)), if_pos hs, if_neg (fun e => e rfl), if_pos hs]
      rfl
  · rw [if_pos (.inr hi), if_pos hi]; rfl

/-! ### Lookups -/

@[simp] theorem Branch.ofNat?_toNat (b : Branch) : Branch.ofNat? (BitVec.ofNat 8 b.toNat).toNat = some b := by
  cases b <;> rfl

theorem Branch.ofNat?_none {n : Nat} (h : 3 < n) : Branch.ofNat? n = none := by
  unfold Branch.ofNat?
  split <;> first | omega | rfl

@[simp] theorem Group.ofNat?_toNat (b : Branch) :
    Group.ofNat? (BitVec.ofNat 8 b.toNat).toNat = some (.branch b) := by
  cases b <;> rfl

theorem Group.ofNat?_none {n : Nat} (h : 4 < n) : Group.ofNat? n = none := by
  unfold Group.ofNat?
  rw [if_neg (by omega), Branch.ofNat?_none (by omega)]
  rfl

/-- In an ascending table every record is found at its address (R17). -/
theorem findNode_of_mem {l : List NodeRecord} (h : l.Pairwise fun q r => q.address < r.address) {r : NodeRecord}
    (hr : r ∈ l) : findNode r.address l = some r := by
  induction l with
  | nil => cases hr
  | cons q rest ih =>
    have hp := List.pairwise_cons.1 h
    unfold findNode
    split
    · rcases List.mem_cons.1 hr with rfl | hr
      · rfl
      · have := hp.1 r hr; omega
    · rcases List.mem_cons.1 hr with rfl | hr
      · contradiction
      · exact ih hp.2 hr

/-- "Next" in an ascending table is the record of the lowest address above the one given (R20). -/
theorem nextNode_of_lowest {l : List NodeRecord} {a : Nat} (h : l.Pairwise fun q r => q.address < r.address)
    {r : NodeRecord} (hr : r ∈ l) (ha : a < r.address) (low : ∀ q ∈ l, a < q.address → r.address ≤ q.address) :
    nextNode a l = some r := by
  induction l with
  | nil => cases hr
  | cons q rest ih =>
    have hp := List.pairwise_cons.1 h
    unfold nextNode
    split
    · rcases List.mem_cons.1 hr with rfl | hr
      · rfl
      · have := hp.1 r hr; have := low q (by simp) ‹_›; omega
    · rcases List.mem_cons.1 hr with rfl | hr
      · contradiction
      · exact ih hp.2 hr fun q hq => low q (by simp [hq])

end Sys2Proof.Machine
end

