-- ==== Sys2Proof/Laws/Engine.lean ====
section
/-! SUPPORT. What a step of one branch can change. Every operation of an engine or a supervisor is a `BranchStep`: it
reaches its own branch, the node records, the end of the pool, the credits and the event flags, and nothing else. -/
namespace Sys2Proof.Machine

/-- Two states of a branch with the same settings, banks and supply. -/
structure SameSettings (A B : BranchState) : Prop where
  rate        : B.rate = A.rate
  odWindow    : B.odWindow = A.odWindow
  odRetries   : B.odRetries = A.odRetries
  bankA       : B.bankA = A.bankA
  bankB       : B.bankB = A.bankB
  supply      : B.supply = A.supply
  enabled     : B.sup.enabled = A.sup.enabled
  level       : B.sup.level = A.sup.level
  qualifyTime : B.sup.qualifyTime = A.sup.qualifyTime
  restoreTime : B.sup.restoreTime = A.sup.restoreTime

theorem SameSettings.rfl {A : BranchState} : SameSettings A A := ⟨.refl _, .refl _, .refl _, .refl _, .refl _, .refl _,
  .refl _, .refl _, .refl _, .refl _⟩

theorem SameSettings.trans {A B C : BranchState} (h : SameSettings A B) (k : SameSettings B C) : SameSettings A C :=
  ⟨k.rate.trans h.rate, k.odWindow.trans h.odWindow, k.odRetries.trans h.odRetries, k.bankA.trans h.bankA,
    k.bankB.trans h.bankB, k.supply.trans h.supply, k.enabled.trans h.enabled, k.level.trans h.level,
    k.qualifyTime.trans h.qualifyTime, k.restoreTime.trans h.restoreTime⟩

theorem SameSettings.above {A B : BranchState} (h : SameSettings A B) : B.above = A.above := by
  simp [BranchState.above, h.supply, h.level]

/-- `t` is `s` after work of branch `b`. -/
structure BranchStep (b : Branch) (s t : State) : Prop where
  strap            : t.strap = s.strap
  trunkRate        : t.trunkRate = s.trunkRate
  receiver         : t.receiver = s.receiver
  rx               : t.rx = s.rx
  muTag            : t.muTag = s.muTag
  droppedResponses : t.droppedResponses = s.droppedResponses
  relaysDropped    : t.relaysDropped = s.relaysDropped
  du               : t.du = s.du
  pending          : t.pending = s.pending
  ticks            : t.ticks = s.ticks
  /-- No other branch is touched. -/
  others           : ∀ c, c ≠ b → t.br c = s.br c
  settings         : SameSettings (s.br b) (t.br b)
  /-- Entries join the pool at its end, as QUEUED, and are RESULTs or REPORTs; none leaves. -/
  pool             : ∃ new, t.pool = s.pool ++ new ∧
    ∀ e ∈ new, e.state = .queued ∧ (e.cls = .result ∨ e.cls = .report)
  /-- No record joins or leaves the table, and every configuration field is kept. -/
  configuration    : t.nodes.map NodeRecord.restarted = s.nodes.map NodeRecord.restarted
  records          : (∀ r ∈ s.nodes, r.Ok) → ∀ r ∈ t.nodes, r.Ok
  cause            : t.eu.cause = s.eu.cause
  enables          : ∀ g, (t.eu.group g).enables = (s.eu.group g).enables
  /-- A flag once set stays set, and so does a pending mark. -/
  flags            : ∀ g, (t.eu.group g).flags &&& (s.eu.group g).flags = (s.eu.group g).flags
  pendingMarks     : ∀ g, (s.eu.group g).pending = true → (t.eu.group g).pending = true
  within           : ∀ g, (s.eu.group g).Within g.flagSet → (t.eu.group g).Within g.flagSet
  lastNode         : (∀ r ∈ s.nodes, r.Ok) → (∀ c, s.eu.lastNode.get c ≤ 239) → ∀ c, t.eu.lastNode.get c ≤ 239

variable {b : Branch} {s t u : State}

theorem BranchStep.rfl : BranchStep b s s where
  strap := .refl _
  trunkRate := .refl _
  receiver := .refl _
  rx := .refl _
  muTag := .refl _
  droppedResponses := .refl _
  relaysDropped := .refl _
  du := .refl _
  pending := .refl _
  ticks := .refl _
  others _ _ := .refl _
  settings := .rfl
  pool := ⟨[], by simp⟩
  configuration := .refl _
  records h := h
  cause := .refl _
  enables _ := .refl _
  flags _ := by simp
  pendingMarks _ h := h
  within _ h := h
  lastNode _ h := h

theorem BranchStep.trans (h : BranchStep b s t) (k : BranchStep b t u) : BranchStep b s u where
  strap := k.strap.trans h.strap
  trunkRate := k.trunkRate.trans h.trunkRate
  receiver := k.receiver.trans h.receiver
  rx := k.rx.trans h.rx
  muTag := k.muTag.trans h.muTag
  droppedResponses := k.droppedResponses.trans h.droppedResponses
  relaysDropped := k.relaysDropped.trans h.relaysDropped
  du := k.du.trans h.du
  pending := k.pending.trans h.pending
  ticks := k.ticks.trans h.ticks
  others c hc := (k.others c hc).trans (h.others c hc)
  settings := h.settings.trans k.settings
  pool := by
    obtain ⟨n, hn, hq⟩ := h.pool
    obtain ⟨m, hm, hr⟩ := k.pool
    refine ⟨n ++ m, by rw [hm, hn, List.append_assoc], fun e he => ?_⟩
    rcases List.mem_append.1 he with he | he
    · exact hq e he
    · exact hr e he
  configuration := k.configuration.trans h.configuration
  records r := k.records (h.records r)
  cause := k.cause.trans h.cause
  enables g := (k.enables g).trans (h.enables g)
  flags g := by
    have h1 := h.flags g
    have h2 := k.flags g
    rw [← h1]
    conv_lhs => rw [← BitVec.and_assoc]
    rw [h2]
  pendingMarks g p := k.pendingMarks g (h.pendingMarks g p)
  within g w := k.within g (h.within g w)
  lastNode r l := k.lastNode (h.records r) (h.lastNode r l)

/-! ### The updates an engine is made of -/

theorem branchStep_onBr (f : BranchState → BranchState) (h : SameSettings (s.br b) (f (s.br b))) :
    BranchStep b s (s.onBr b f) :=
  { BranchStep.rfl (b := b) (s := s) with
    others := fun c hc => s.onBr_br_other f hc
    settings := by simpa using h
    enables := fun _ => .refl _, flags := fun _ => by simp, pendingMarks := fun _ h => h, within := fun _ h => h
    lastNode := fun _ h => h }

theorem branchStep_count (f : BranchCounters → BranchCounters) : BranchStep b s (s.count b f) :=
  branchStep_onBr _ ⟨rfl, rfl, rfl, rfl, rfl, rfl, rfl, rfl, rfl, rfl⟩

theorem branchStep_onCycle (f : Cycle → Cycle) : BranchStep b s (s.onCycle b f) :=
  branchStep_onBr _ ⟨rfl, rfl, rfl, rfl, rfl, rfl, rfl, rfl, rfl, rfl⟩

theorem branchStep_onSup (f : Supervisor → Supervisor)
    (h : (f (s.br b).sup).enabled = (s.br b).sup.enabled ∧ (f (s.br b).sup).level = (s.br b).sup.level ∧
      (f (s.br b).sup).qualifyTime = (s.br b).sup.qualifyTime ∧
      (f (s.br b).sup).restoreTime = (s.br b).sup.restoreTime) : BranchStep b s (s.onSup b f) :=
  branchStep_onBr _ ⟨rfl, rfl, rfl, rfl, rfl, rfl, h.1, h.2.1, h.2.2.1, h.2.2.2⟩

theorem branchStep_onNode (a : Nat) (f : NodeRecord → NodeRecord)
    (h : ∀ r, findNode a s.nodes = some r → (f r).restarted = r.restarted)
    (k : ∀ r, findNode a s.nodes = some r → r.Ok → (f r).Ok) : BranchStep b s (s.onNode a f) :=
  { BranchStep.rfl (b := b) (s := s) with
    others := fun _ _ => .refl _
    settings := .rfl
    configuration := map_updateNode _ h
    records := fun ok q hq => by
      rcases mem_updateNode hq with hq | ⟨r, hr, rfl⟩
      · exact ok q hq
      · exact k r hr (ok r (findNode_some hr).1)
    lastNode := fun _ h => h }

theorem branchStep_admit (c : UplinkClass) (p : List Byte) (h : c = .result ∨ c = .report) :
    BranchStep b s (s.addEntry c p) :=
  { BranchStep.rfl (b := b) (s := s) with
    others := fun _ _ => .refl _
    settings := .rfl
    pool := ⟨_, rfl, fun e he => by rw [List.mem_singleton.1 he]; exact ⟨rfl, h⟩⟩
    lastNode := fun _ h => h }

theorem branchStep_convert (tag : Byte) (n : Nat) (st : ResultStatus) (r : List Byte) :
    BranchStep b s (s.convert tag n st r) :=
  { branchStep_admit (b := b) (s := s) .result (resultPayload tag n st r) (.inl rfl) with }

/-- A signal adds a flag and can only set a pending mark (R175). -/
theorem FlagGroup.raise_spec (g : FlagGroup) (mask : Byte) :
    (g.raise mask).enables = g.enables ∧ (g.raise mask).flags = g.flags ||| (g.raise mask).flags ∧
      (g.pending = true → (g.raise mask).pending = true) ∧
      ∀ all : Byte, mask &&& ~~~all = 0 → g.Within all → (g.raise mask).Within all := by
  unfold FlagGroup.raise
  split
  · refine ⟨rfl, by simp [← BitVec.or_assoc], by simp +contextual, fun all hm hw => ⟨?_, hw.2⟩⟩
    show (g.flags ||| mask) &&& ~~~all = 0
    rw [BitVec.and_comm, BitVec.and_or_distrib_left, BitVec.and_comm, hw.1, BitVec.and_comm, hm]
    simp
  · exact ⟨rfl, by simp, fun h => h, fun _ _ h => h⟩

theorem BranchFlag.mask_within (f : BranchFlag) : f.mask &&& ~~~branchFlagSet = 0 := by cases f <;> decide

theorem DeviceFlag.mask_within (f : DeviceFlag) : f.mask &&& ~~~deviceFlagSet = 0 := by cases f <;> decide

theorem EventUnit.group_onGroup (eu : EventUnit) (g k : Group) (f : FlagGroup → FlagGroup) :
    (eu.onGroup g f).group k = if k = g then f (eu.group g) else eu.group k := by
  cases g with
  | branch c =>
    cases k with
    | branch d =>
      by_cases hd : d = c
      · subst hd; simp [EventUnit.onGroup, EventUnit.group]
      · simp [EventUnit.onGroup, EventUnit.group, Per.get_set_other _ _ hd, hd]
    | device => simp [EventUnit.onGroup, EventUnit.group]
  | device => cases k <;> simp [EventUnit.onGroup, EventUnit.group]

theorem branchStep_raise (g : Group) (mask : Byte) (hm : mask &&& ~~~g.flagSet = 0) :
    BranchStep b s { s with eu := s.eu.onGroup g (·.raise mask) } :=
  have key := (s.eu.group g).raise_spec mask
  { BranchStep.rfl (b := b) (s := s) with
    others := fun _ _ => .refl _
    settings := .rfl
    cause := by cases g <;> rfl
    enables := fun k => by
      simp only [EventUnit.group_onGroup]; split
      · subst k; exact key.1
      · rfl
    flags := fun k => by
      simp only [EventUnit.group_onGroup]; split
      · subst k
        rw [key.2.1]
        ext i; simp
        intro hi; simp [hi]
      · simp
    pendingMarks := fun k => by
      simp only [EventUnit.group_onGroup]; split
      · subst k; exact key.2.2.1
      · exact id
    within := fun k => by
      simp only [EventUnit.group_onGroup]; split
      · subst k; exact key.2.2.2 _ hm
      · exact id
    lastNode := fun _ h c => by cases g <;> exact h c }

theorem branchStep_signal (c : Branch) (f : BranchFlag) : BranchStep b s (s.signal c f) :=
  branchStep_raise (.branch c) f.mask f.mask_within

theorem branchStep_signalDevice (f : DeviceFlag) : BranchStep b s (s.signalDevice f) :=
  branchStep_raise .device f.mask f.mask_within

theorem branchStep_signalNode (c : Branch) (f : BranchFlag) (a : Nat)
    (h : (∀ r ∈ s.nodes, r.Ok) → a ≤ 239) : BranchStep b s (s.signalNode c f a) :=
  (branchStep_signal c f).trans
    { BranchStep.rfl (b := b) (s := s.signal c f) with
      others := fun _ _ => .refl _
      settings := .rfl
      enables := fun g => by cases g <;> rfl
      flags := fun g => by cases g <;> exact BitVec.and_self
      pendingMarks := fun g => by cases g <;> exact id
      within := fun g => by cases g <;> exact id
      lastNode := fun ok hl d => by
        show ((s.signal c f).eu.lastNode.set c a).get d ≤ 239
        by_cases hd : d = c
        · subst hd; simpa using h ok
        · rw [Per.get_set_other _ _ hd]; exact hl d }

end Sys2Proof.Machine
end

