-- ==== Sys2Proof/Laws/EngineOps.lean ====
section
/-! SUPPORT. Every operation of the engines and supervisors is a step of its branch: one lemma for each. -/
namespace Sys2Proof.Machine

variable {b : Branch} {s : State}

theorem branchStep_ite {p : Prop} [Decidable p] {t u : State} (h : p → BranchStep b s t) (k : ¬p → BranchStep b s u) :
    BranchStep b s (if p then t else u) := by
  split
  · exact h ‹_›
  · exact k ‹_›

/-! ### Swaps, ageing, removals -/

theorem branchStep_takeSwap : BranchStep b s (s.takeSwap b) :=
  (branchStep_onBr _ ⟨rfl, rfl, rfl, rfl, rfl, rfl, rfl, rfl, rfl, rfl⟩).trans (branchStep_signal _ _)

theorem branchStep_takePendingSwap : BranchStep b s (s.takePendingSwap b) :=
  branchStep_ite (fun _ => branchStep_takeSwap) fun _ => .rfl

theorem branchStep_convertAll (st : ResultStatus) (l : List Command) : BranchStep b s (s.convertAll st l) := by
  induction l generalizing s with
  | nil => exact .rfl
  | cons c rest ih => exact (branchStep_convert _ _ _ _).trans ih

theorem branchStep_flushQueue (st : ResultStatus) : BranchStep b s (s.flushQueue b st) :=
  (branchStep_onBr _ ⟨rfl, rfl, rfl, rfl, rfl, rfl, rfl, rfl, rfl, rfl⟩).trans (branchStep_convertAll _ _)

theorem branchStep_purgeQueue (a : Nat) : BranchStep b s (s.purgeQueue a b) :=
  (branchStep_onBr _ ⟨rfl, rfl, rfl, rfl, rfl, rfl, rfl, rfl, rfl, rfl⟩).trans (branchStep_convertAll _ _)

theorem branchStep_expireAll (l : List Command) : BranchStep b s (s.expireAll b l) :=
  branchStep_ite (fun _ => .rfl) fun _ => (branchStep_convertAll _ _).trans (branchStep_signal _ _)

theorem branchStep_ageQueue : BranchStep b s (s.ageQueue b) :=
  (branchStep_onBr _ ⟨rfl, rfl, rfl, rfl, rfl, rfl, rfl, rfl, rfl, rfl⟩).trans (branchStep_expireAll _)

theorem branchStep_expireDue : BranchStep b s (s.expireDue b) :=
  (branchStep_onBr _ ⟨rfl, rfl, rfl, rfl, rfl, rfl, rfl, rfl, rfl, rfl⟩).trans (branchStep_expireAll _)

/-! ### Slots -/

theorem branchStep_skipSlot : BranchStep b s (s.skipSlot b) := (branchStep_count _).trans (branchStep_onCycle _)

theorem branchStep_beginAttempt (rate : LineRate) (w : PollWork) : BranchStep b s (s.beginAttempt b rate w) :=
  branchStep_onBr _ ⟨rfl, rfl, rfl, rfl, rfl, rfl, rfl, rfl, rfl, rfl⟩

theorem branchStep_launch (r : NodeRecord) (c : Command) (window retries : Nat) :
    BranchStep b s (s.launch b r c window retries) :=
  (branchStep_onNode r.address (fun q => { q with toggle := !r.toggle }) (fun _ _ => rfl)
    fun _ _ h => h.same rfl rfl rfl rfl rfl rfl rfl rfl rfl rfl h.pollsSince).trans (branchStep_beginAttempt _ _)

theorem branchStep_chooseFrame (r : NodeRecord) (window retries : Nat) :
    BranchStep b s (s.chooseFrame b r window retries) := by
  unfold State.chooseFrame
  dsimp only
  split
  · exact (branchStep_count _).trans ((branchStep_onBr _ ⟨rfl, rfl, rfl, rfl, rfl, rfl, rfl, rfl, rfl, rfl⟩).trans
      (branchStep_launch _ _ _ _))
  · exact (branchStep_count _).trans (branchStep_beginAttempt _ _)

theorem branchStep_lookup (node window retries : Nat) : BranchStep b s (s.lookup b node window retries) := by
  unfold State.lookup
  split
  · exact branchStep_skipSlot
  · rename_i r hr
    refine branchStep_ite (fun _ => branchStep_skipSlot) fun _ => ?_
    have mine : ∀ q, findNode node s.nodes = some q → q = r := fun q hq => by
      have : some r = some q := hr.symm.trans hq
      exact (Option.some.inj this).symm
    split
    · exact branchStep_skipSlot
    · exact branchStep_chooseFrame _ _ _
    · exact branchStep_chooseFrame _ _ _
    · rename_i hoff
      refine branchStep_ite (fun hpos => ?_) fun _ => ?_
      · refine (branchStep_onNode node (fun q => { q with countdown := r.countdown - 1 }) (fun _ _ => rfl)
          fun q hq hok => ?_).trans branchStep_skipSlot
        cases mine q hq
        have hc := hok.countdown
        rw [if_pos hoff] at hc
        exact ⟨hok.address, hok.threshold, hok.divisor, hok.reportPeriod, hok.compareLength, hok.lifetime,
          hok.pollsSince, hok.inactive, hok.offline, hok.suspect, hok.fresh, by
            show if r.health = .offline then _ else _
            rw [if_pos hoff]; constructor
            · exact hpos
            · show r.countdown - 1 ≤ 255; omega⟩
      · refine (branchStep_onNode node (fun q => { q with countdown := r.divisor }) (fun _ _ => rfl)
          fun q hq hok => ?_).trans (branchStep_chooseFrame _ _ _)
        cases mine q hq
        exact ⟨hok.address, hok.threshold, hok.divisor, hok.reportPeriod, hok.compareLength, hok.lifetime,
          hok.pollsSince, hok.inactive, hok.offline, hok.suspect, hok.fresh, by
            show if r.health = .offline then _ else _
            rw [if_pos hoff]; exact hok.divisor⟩

theorem branchStep_startSlot : BranchStep b s (s.startSlot b) := by
  unfold State.startSlot
  dsimp only
  split
  · exact branchStep_lookup _ _ _
  · exact (branchStep_count _).trans (branchStep_onBr _ ⟨rfl, rfl, rfl, rfl, rfl, rfl, rfl, rfl, rfl, rfl⟩)
  · exact (branchStep_count _).trans (branchStep_onBr _ ⟨rfl, rfl, rfl, rfl, rfl, rfl, rfl, rfl, rfl, rfl⟩)

theorem branchStep_runSlots (n : Nat) : BranchStep b s (State.runSlots b n s) := by
  induction n generalizing s with
  | zero => exact .rfl
  | succ n ih => exact branchStep_ite (fun _ => branchStep_startSlot) fun _ => branchStep_startSlot.trans ih

theorem branchStep_runCycle : BranchStep b s (s.runCycle b) := branchStep_runSlots _

/-! ### Cycles -/

theorem branchStep_openCycle : BranchStep b s (s.openCycle b) :=
  branchStep_takePendingSwap.trans <| (branchStep_onCycle _).trans <| (branchStep_count _).trans <|
    branchStep_ageQueue.trans <| (branchStep_onCycle _).trans branchStep_runCycle

theorem branchStep_wait : BranchStep b s (s.wait b) := branchStep_onCycle _

theorem branchStep_completeCycle : BranchStep b s (s.completeCycle b) :=
  branchStep_ite
    (fun _ => (branchStep_onCycle _).trans <| (branchStep_signal _ _).trans <| (branchStep_count _).trans <|
      branchStep_openCycle.trans <| branchStep_ite (fun _ => .rfl) fun _ => branchStep_wait)
    fun _ => branchStep_wait

theorem branchStep_cycleStart : BranchStep b s (s.cycleStart b) :=
  branchStep_openCycle.trans <| branchStep_ite (fun _ => .rfl) fun _ => branchStep_completeCycle

theorem branchStep_continueCycle : BranchStep b s (s.continueCycle b) :=
  branchStep_runCycle.trans <| branchStep_ite (fun _ => .rfl) fun _ => branchStep_completeCycle

theorem branchStep_suspendedCycle : BranchStep b s (s.suspendedCycle b) :=
  branchStep_takePendingSwap.trans <| (branchStep_onCycle _).trans <| (branchStep_count _).trans branchStep_wait

theorem branchStep_startTimer : BranchStep b s (s.startTimer b) := branchStep_onCycle _

theorem branchStep_tickEngine : BranchStep b s (s.tickEngine b) := by
  unfold State.tickEngine
  split
  · exact .rfl
  · exact branchStep_ite (fun _ => branchStep_cycleStart) fun _ => branchStep_suspendedCycle
  · exact branchStep_onCycle _

theorem branchStep_endCycling : BranchStep b s (s.endCycling b) :=
  (branchStep_onCycle _).trans branchStep_takePendingSwap

/-! ### Transactions -/

theorem branchStep_startTransaction : BranchStep b s (s.startTransaction b) := by
  unfold State.startTransaction
  split
  · exact .rfl
  · rename_i c rest _
    dsimp only
    refine (branchStep_onBr (fun B => { B with queue := rest })
      ⟨rfl, rfl, rfl, rfl, rfl, rfl, rfl, rfl, rfl, rfl⟩).trans ?_
    split
    · exact branchStep_convert _ _ _ _
    · exact branchStep_ite (fun _ => branchStep_convert _ _ _ _) fun _ =>
        branchStep_ite (fun _ => branchStep_convert _ _ _ _) fun _ => branchStep_launch _ _ _ _

theorem branchStep_runTransactions (n : Nat) : BranchStep b s (State.runTransactions b n s) := by
  induction n generalizing s with
  | zero => exact .rfl
  | succ n ih => exact branchStep_ite (fun _ => branchStep_startTransaction.trans ih) fun _ => .rfl

theorem branchStep_kick : BranchStep b s (s.kick b) := branchStep_runTransactions _

/-! ### The supply and the modes -/

theorem branchStep_beginWork : BranchStep b s (s.beginWork b) := by
  unfold State.beginWork
  split
  · exact branchStep_startTimer.trans branchStep_cycleStart
  · exact branchStep_kick
  · exact .rfl

theorem branchStep_reachNormal : BranchStep b s (s.reachNormal b) := by
  unfold State.reachNormal
  dsimp only
  refine (branchStep_onSup (fun v => { v with state := .normal, restore := none, faultMark := false })
    ⟨rfl, rfl, rfl, rfl⟩).trans ?_
  refine (branchStep_ite (p := (s.br b).sup.faultMark = true)
    (fun _ => branchStep_signal b .supplyRestored) fun _ => .rfl).trans ?_
  exact branchStep_ite
    (fun _ => (branchStep_onBr (fun B => { B with supplyWait := false })
      ⟨rfl, rfl, rfl, rfl, rfl, rfl, rfl, rfl, rfl, rfl⟩).trans branchStep_beginWork)
    fun _ => branchStep_kick

theorem branchStep_awaitSupply : BranchStep b s (s.awaitSupply b) := by
  unfold State.awaitSupply
  dsimp only
  refine (branchStep_onBr (fun B => { B with supplyWait := true })
    ⟨rfl, rfl, rfl, rfl, rfl, rfl, rfl, rfl, rfl, rfl⟩).trans ?_
  refine BranchStep.trans ?_ (branchStep_ite (fun _ => .rfl) fun _ => branchStep_reachNormal)
  exact branchStep_onSup _ ⟨rfl, rfl, rfl, rfl⟩

theorem branchStep_goOff : BranchStep b s (s.goOff b) :=
  (branchStep_flushQueue .branchOff).trans <|
    (branchStep_onBr (fun B => { B with supplyWait := false })
      ⟨rfl, rfl, rfl, rfl, rfl, rfl, rfl, rfl, rfl, rfl⟩).trans <|
      branchStep_onSup (fun v => { v with state := .disabled, restore := none, qualify := none, faultMark := false })
        ⟨rfl, rfl, rfl, rfl⟩

theorem branchStep_beginCycling : BranchStep b s (s.beginCycling b) :=
  branchStep_ite (fun _ => .rfl) fun _ =>
    branchStep_ite (fun _ => branchStep_startTimer.trans branchStep_cycleStart) fun _ =>
      branchStep_startTimer.trans branchStep_suspendedCycle

theorem branchStep_takeChange : BranchStep b s (s.takeChange b) := by
  unfold State.takeChange
  dsimp only
  refine (branchStep_onBr (fun B => { B with current := (s.br b).requested })
    ⟨rfl, rfl, rfl, rfl, rfl, rfl, rfl, rfl, rfl, rfl⟩).trans ?_
  split
  · exact branchStep_endCycling.trans branchStep_kick
  · exact branchStep_endCycling.trans branchStep_goOff
  · exact branchStep_goOff
  · exact branchStep_beginCycling
  all_goals first | exact branchStep_awaitSupply | exact .rfl

theorem branchStep_requestMode (m : Mode) : BranchStep b s (s.requestMode b m) :=
  (branchStep_onBr _ ⟨rfl, rfl, rfl, rfl, rfl, rfl, rfl, rfl, rfl, rfl⟩).trans <|
    branchStep_ite (fun _ => branchStep_takeChange) fun _ => .rfl

/-! ### The end of a slot and the write-back -/

theorem branchStep_endSlot : BranchStep b s (s.endSlot b) :=
  (branchStep_onBr _ ⟨rfl, rfl, rfl, rfl, rfl, rfl, rfl, rfl, rfl, rfl⟩).trans <| (branchStep_onCycle _).trans <|
    branchStep_ite (fun _ => branchStep_takeChange) fun _ => branchStep_continueCycle

theorem branchStep_endTransaction : BranchStep b s (s.endTransaction b) :=
  (branchStep_onBr _ ⟨rfl, rfl, rfl, rfl, rfl, rfl, rfl, rfl, rfl, rfl⟩).trans <|
    branchStep_ite (fun _ => branchStep_takeChange) fun _ => branchStep_kick

theorem branchStep_endWork : BranchStep b s (s.endWork b) :=
  branchStep_ite (fun _ => branchStep_endTransaction) fun _ => branchStep_endSlot

theorem branchStep_polled (a : Nat) (f : NodeRecord → NodeRecord)
    (h : ∀ r, (f r) = { r with pollsSince := bump255 r.pollsSince } ∨
      ∃ v, f r = { r with lastValue := v, pollsSince := 0 }) : BranchStep b s (s.onNode a f) :=
  branchStep_onNode _ _ (fun r _ => by rcases h r with e | ⟨v, e⟩ <;> rw [e] <;> rfl) fun r _ ok => by
    rcases h r with e | ⟨v, e⟩ <;> rw [e]
    · exact ok.same rfl rfl rfl rfl rfl rfl rfl rfl rfl rfl (Nat.min_le_right _ _)
    · exact ok.same rfl rfl rfl rfl rfl rfl rfl rfl rfl rfl (Nat.zero_le _)

theorem branchStep_reportDecision (r : NodeRecord) (reply : List Byte) :
    BranchStep b s (s.reportDecision b r reply) := by
  unfold State.reportDecision
  refine branchStep_ite (fun _ => branchStep_ite (fun _ => ?_) fun _ => ?_) fun _ => ?_
  · exact (branchStep_admit _ _ (.inr rfl)).trans (branchStep_polled _ _ fun _ => .inr ⟨_, rfl⟩)
  · dsimp only
    exact BranchStep.trans
      (t := { s.signalDevice .reportDropped with droppedReports := bump s.droppedReports })
      { branchStep_signalDevice (b := b) (s := s) .reportDropped with } (branchStep_polled _ _ fun _ => .inl rfl)
  · exact branchStep_polled _ _ fun _ => .inl rfl

theorem branchStep_okOutcome {r : NodeRecord} (hr : s.node? r.address = some r) (ha : r.health ≠ .inactive) :
    BranchStep b s (s.okOutcome b r) := by
  have h : BranchStep b s (s.onNode r.address NodeRecord.afterOk) :=
    branchStep_onNode _ _ (fun q _ => rfl) fun q hq ok => by
      have : some r = some q := hr.symm.trans hq
      cases this
      exact ok.afterOk ha
  refine h.trans (branchStep_ite (fun _ => branchStep_signalNode _ _ _ fun ok => ?_) fun _ => .rfl)
  exact (ok r.afterOk (findNode_some (findNode_updateNode_same (f := NodeRecord.afterOk) hr rfl)).1).address.2

theorem branchStep_failedOutcome {r : NodeRecord} (hr : s.node? r.address = some r) :
    BranchStep b s (s.failedOutcome b r) := by
  have ad : ∀ q : NodeRecord, q.afterFailure.restarted = q.restarted ∧ q.afterFailure.address = q.address := fun q => by
    unfold NodeRecord.afterFailure
    dsimp only
    split <;> first | exact ⟨rfl, rfl⟩ | (split <;> exact ⟨rfl, rfl⟩)
  have h : BranchStep b s (s.onNode r.address NodeRecord.afterFailure) :=
    branchStep_onNode _ _ (fun q _ => (ad q).1) fun _ _ ok => ok.afterFailure
  refine h.trans (branchStep_ite (fun _ => branchStep_signalNode _ _ _ fun ok => ?_) fun _ => .rfl)
  have := (ok r.afterFailure
    (findNode_some (findNode_updateNode_same (f := NodeRecord.afterFailure) hr (ad r).2)).1).address.2
  rwa [(ad r).2] at this

theorem branchStep_applyOutcome (w : PollWork) : BranchStep b s (s.applyOutcome b w) := by
  unfold State.applyOutcome
  split
  · exact branchStep_count _
  · rename_i r hr
    have hr' : s.node? r.address = some r := by rwa [(findNode_some hr).2]
    refine branchStep_ite (fun _ => branchStep_count _) fun _ => ?_
    have stat : ∀ f : NodeRecord → NodeRecord, (∀ q, f q = { q with okReplies := (f q).okReplies, totalMisses := (f q).totalMisses }) → BranchStep b s (s.onNode r.address f) := fun f hf =>
      branchStep_onNode _ _ (fun q _ => by rw [hf q]; rfl) fun q _ ok => by
        rw [hf q]; exact ok.same rfl rfl rfl rfl rfl rfl rfl rfl rfl rfl ok.pollsSince
    split
    · refine branchStep_ite (fun _ => stat _ fun _ => rfl) fun ha => ?_
      dsimp only
      refine (branchStep_okOutcome hr' ha).trans ?_
      split
      · exact branchStep_reportDecision _ _
      · exact .rfl
    · exact branchStep_ite (fun _ => stat _ fun _ => rfl) fun _ => branchStep_failedOutcome hr'

theorem branchStep_issueResult (w : PollWork) : BranchStep b s (s.issueResult w) := by
  unfold State.issueResult
  split
  · exact .rfl
  · exact branchStep_convert _ _ _ _

theorem branchStep_countOutcome (w : PollWork) : BranchStep b s (s.countOutcome b w) := by
  unfold State.countOutcome
  split
  · exact .rfl
  · exact branchStep_count _
  · exact branchStep_count _

theorem branchStep_writeBack (w : PollWork) : BranchStep b s (s.writeBack b w) :=
  (branchStep_applyOutcome _).trans <| (branchStep_issueResult _).trans (branchStep_countOutcome _)

theorem branchStep_finishWork (w : PollWork) : BranchStep b s (s.finishWork b w) :=
  (branchStep_writeBack _).trans branchStep_endWork

/-! ### Attempts -/

theorem branchStep_endAttempt (rate : LineRate) (w : PollWork) : BranchStep b s (s.endAttempt b rate w) := by
  unfold State.endAttempt
  split
  · exact branchStep_finishWork _
  · exact (branchStep_count _).trans (branchStep_beginAttempt _ _)

theorem branchStep_failAttempt (rate : LineRate) (w : PollWork) (cls : FailClass) :
    BranchStep b s (s.failAttempt b rate w cls) := (branchStep_count _).trans (branchStep_endAttempt _ _)

theorem branchStep_settleAttempt (rate : LineRate) (w : PollWork) (cls : FailClass) (q : QuietFrom) :
    BranchStep b s (s.settleAttempt b rate w cls q) :=
  (branchStep_count _).trans (branchStep_onBr _ ⟨rfl, rfl, rfl, rfl, rfl, rfl, rfl, rfl, rfl, rfl⟩)

theorem branchStep_heardFrame (f : LineFrame) : BranchStep b s (s.heardFrame b f) := by
  unfold State.heardFrame
  split
  · exact .rfl
  · split
    · exact branchStep_finishWork _
    · exact branchStep_failAttempt _ _ _

theorem branchStep_heardQuiet (start : QuietFrom) : BranchStep b s (s.heardQuiet b start) := by
  refine branchStep_onBr _ ?_
  split <;> exact ⟨rfl, rfl, rfl, rfl, rfl, rfl, rfl, rfl, rfl, rfl⟩

theorem branchStep_heardFragment (a : Byte) (cause : FragmentCause) : BranchStep b s (s.heardFragment b a cause) := by
  unfold State.heardFragment
  split
  · split
    · exact branchStep_heardQuiet _
    · exact .rfl
  · exact branchStep_settleAttempt _ _ _ _

theorem branchStep_heardGap (a : Byte) : BranchStep b s (s.heardGap b a) := by
  unfold State.heardGap
  split
  · exact .rfl
  · exact branchStep_failAttempt _ _ _

/-! ### Faults and the comparator -/

theorem branchStep_abandon : BranchStep b s (s.abandon b) := by
  unfold State.abandon
  dsimp only
  split
  · exact branchStep_onBr _ ⟨rfl, rfl, rfl, rfl, rfl, rfl, rfl, rfl, rfl, rfl⟩
  · exact (branchStep_onBr _ ⟨rfl, rfl, rfl, rfl, rfl, rfl, rfl, rfl, rfl, rfl⟩).trans (branchStep_convert _ _ _ _)

theorem branchStep_enterFault : BranchStep b s (s.enterFault b) :=
  (branchStep_onSup _ ⟨rfl, rfl, rfl, rfl⟩).trans <| (branchStep_signal _ _).trans <| branchStep_abandon.trans <|
    (branchStep_flushQueue _).trans <| BranchStep.trans (branchStep_onCycle _) <|
      branchStep_ite (fun _ => branchStep_takeChange) fun _ => .rfl

theorem branchStep_takeRise : BranchStep b s (s.takeRise b) := by
  unfold State.takeRise
  split
  · exact branchStep_onSup _ ⟨rfl, rfl, rfl, rfl⟩
  · exact (branchStep_onSup _ ⟨rfl, rfl, rfl, rfl⟩).trans (branchStep_count _)
  · exact branchStep_onSup _ ⟨rfl, rfl, rfl, rfl⟩
  · exact .rfl
  · exact .rfl

theorem branchStep_takeFall : BranchStep b s (s.takeFall b) := by
  unfold State.takeFall
  split
  · exact branchStep_onSup _ ⟨rfl, rfl, rfl, rfl⟩
  · exact branchStep_onSup _ ⟨rfl, rfl, rfl, rfl⟩
  all_goals exact .rfl

theorem branchStep_compare (was : Bool) : BranchStep b s (s.compare b was) := by
  unfold State.compare
  dsimp only
  refine branchStep_ite (fun _ => ?_) fun _ => .rfl
  split
  · exact branchStep_takeRise
  · exact branchStep_takeFall
  all_goals exact .rfl

theorem branchStep_disableSupervision : BranchStep b s (s.disableSupervision b) := by
  unfold State.disableSupervision
  split
  · exact branchStep_reachNormal
  · exact branchStep_reachNormal
  · exact branchStep_onSup _ ⟨rfl, rfl, rfl, rfl⟩
  all_goals exact .rfl

theorem branchStep_enableSupervision : BranchStep b s (s.enableSupervision b) :=
  branchStep_ite (fun _ => branchStep_onSup _ ⟨rfl, rfl, rfl, rfl⟩) fun _ => .rfl

end Sys2Proof.Machine
end

