-- ==== Sys2Proof/Laws/Frames.lean ====
section
/-! SUPPORT. Frames: what a sealed frame is, and how a receiver takes a frame's characters one after another. -/
namespace Sys2Proof.Machine

@[simp] theorem sealed_address (a k t : Byte) (p : List Byte) : (LineFrame.sealed a k t p).address = a := rfl
@[simp] theorem sealed_kind (a k t : Byte) (p : List Byte) : (LineFrame.sealed a k t p).kind = k := rfl
@[simp] theorem sealed_third (a k t : Byte) (p : List Byte) : (LineFrame.sealed a k t p).third = t := rfl
@[simp] theorem sealed_payload (a k t : Byte) (p : List Byte) : (LineFrame.sealed a k t p).payload = p := rfl

/-- A frame the HX4 seals has a check that agrees (R9). -/
@[simp] theorem sealed_checkAgrees (a k t : Byte) (p : List Byte) : (LineFrame.sealed a k t p).checkAgrees = true := by
  unfold LineFrame.checkAgrees
  exact beq_iff_eq.2 rfl

/-- The two bytes of a half word are that half word (R191). -/
theorem hi_append_lo (h : Half) : (hi h ++ lo h : Half) = h := by
  apply BitVec.eq_of_getLsbD_eq
  intro i hi'
  simp only [hi, lo, BitVec.getLsbD_append, BitVec.getLsbD_extractLsb']
  by_cases h8 : i < 8
  · simp [h8]
  · have : i - 8 < 8 := by omega
    simp [h8, this, show 8 + (i - 8) = i by omega]

theorem LineFrame.values_length (f : LineFrame) : f.values.length = 6 + f.payload.length := by
  simp [LineFrame.values, LineFrame.body, two]; omega

theorem LineFrame.characters_eq (f : LineFrame) :
    f.characters = (true, f.address) :: (f.values.drop 1).map fun v => (false, v) := rfl

/-- A row of values shorter than its frame is no frame yet, and the whole row is the frame (R8, R10). -/
theorem LineFrame.ofValues_values {f : LineFrame} (h : f.payload.length < 256) :
    LineFrame.ofValues f.values = some f := by
  have hl : (byte f.payload.length).toNat = f.payload.length := by
    simp [byte, BitVec.toNat_ofNat]; omega
  rcases f with ⟨a, k, t, p, c⟩
  simp only [LineFrame.values, LineFrame.body, List.cons_append, LineFrame.ofValues]
  simp only at hl
  rw [hl, List.drop_left, List.take_left]
  simp [two, hi_append_lo]

/-! ### The line (R1, R2) -/

theorem Sampler.run_nil (half : Nat) (r : Sampler) : Sampler.run half r [] = (r, []) := rfl

theorem Sampler.run_cons (half : Nat) (r : Sampler) (level : Bool) (rest : List Bool) :
    Sampler.run half r (level :: rest) =
      ((Sampler.run half (r.next half level).1 rest).1,
        (r.next half level).2.toList ++ (Sampler.run half (r.next half level).1 rest).2) := rfl

/-- A stretch of the line is heard in parts. -/
theorem Sampler.run_append (half : Nat) (r : Sampler) (first later : List Bool) :
    Sampler.run half r (first ++ later) =
      ((Sampler.run half (Sampler.run half r first).1 later).1,
        (Sampler.run half r first).2 ++ (Sampler.run half (Sampler.run half r first).1 later).2) := by
  induction first generalizing r with
  | nil => simp [Sampler.run_nil]
  | cons level rest ih => simp [Sampler.run_cons, ih]

/-- A line at 1 is no event for a receiver that looks for a fall. -/
theorem Sampler.run_looking_high (half n : Nat) :
    Sampler.run half .looking (List.replicate n true) = (.looking, []) := by
  induction n with
  | zero => rfl
  | succ n ih => simp [List.replicate_succ, Sampler.run_cons, Sampler.next, ih]

/-- A line held at 0 after a framing error is no event (R2). -/
theorem Sampler.run_heldLow_low (half n : Nat) :
    Sampler.run half .heldLow (List.replicate n false) = (.heldLow, []) := by
  induction n with
  | zero => rfl
  | succ n ih => simp [List.replicate_succ, Sampler.run_cons, Sampler.next, ih]

/-- Between the middles of two bits nothing is sampled. -/
theorem Sampler.run_sampling_wait (half : Nat) (taken : List Bool) (levels : List Bool) (left : Nat) :
    Sampler.run half (.sampling (levels.length + left) taken) levels = (.sampling left taken, []) := by
  induction levels with
  | nil => simp [Sampler.run_nil]
  | cons level rest ih =>
    rw [Sampler.run_cons, List.length_cons, show rest.length + 1 + left = (rest.length + left) + 1 by omega]
    simp [Sampler.next, ih]

/-- The rest of a good stop bit passes, and its event is reported at its end (R2). -/
theorem Sampler.run_ending (half : Nat) (event : RxEvent) (levels : List Bool) :
    Sampler.run half (.ending levels.length event) (levels ++ [true]) = (.looking, [event]) ∧
    Sampler.run half (.ending levels.length event) (levels ++ [false]) = (.looking, [event]) := by
  induction levels with
  | nil => constructor <;> rfl
  | cons level rest ih =>
    constructor <;> simp [Sampler.run_cons, Sampler.next, Sampler.finish, ih]

end Sys2Proof.Machine
end

