-- ==== Sys2Proof/Laws/PerInstr.lean ====
section
/-! SUPPORT. Statements made for every command, one lemma for each constructor. -/
namespace Sys2Proof.Laws

/-- A well-formed row that stands for a trunk frame stands for one that fits the trunk (R8), whose check agrees (R9), and
whose address and kind go together (R12 step 4). -/
def TrunkBytes.Statement (i : Instr) : Prop :=
  ∀ (strap : Fin 8) (f : LineFrame), i.wf = true → i.trunkFrame (240#8 + BitVec.ofNat 8 strap.val) = some f →
    f.payload.length ≤ 32 ∧ f.checkAgrees = true ∧
      ((240 ≤ f.address.toNat ∧ f.address.toNat ≤ 247 ∧ (f.kind = Machine.kindMgmtReq ∨ f.kind = Machine.kindAck)) ∨
        (1 ≤ f.address.toNat ∧ f.address.toNat ≤ 239 ∧ f.kind = Machine.kindRelay))

namespace TrunkBytes

/-- A row that stands for no trunk frame. -/
theorem of_none {i : Instr} (h : ∀ a, i.trunkFrame a = none) : Statement i := by
  intro st f _ hf
  rw [h] at hf
  cases hf

theorem station_range (strap : Fin 8) :
    240 ≤ (240#8 + BitVec.ofNat 8 strap.val).toNat ∧ (240#8 + BitVec.ofNat 8 strap.val).toNat ≤ 247 := by
  revert strap; decide

/-- A row that stands for a request, whose payload fits where it is well formed. -/
theorem of_request {i : Instr} {tag : Byte} {payload : List Byte}
    (h : ∀ a, i.trunkFrame a = some (LineFrame.sealed a Machine.kindMgmtReq tag payload))
    (hl : i.wf = true → payload.length ≤ 32) : Statement i := by
  intro st f hw hf
  rw [h] at hf
  cases hf
  exact ⟨hl hw, Machine.sealed_checkAgrees .., .inl ⟨(station_range st).1, (station_range st).2, .inl rfl⟩⟩

theorem powerOn (sa : Fin 8) (tr : Fin 4) : Statement (.powerOn sa tr) := of_none fun _ => rfl
theorem pinReset (sa : Fin 8) (tr : Fin 4) : Statement (.pinReset sa tr) := of_none fun _ => rfl
theorem trunkFragment (event : RxEvent) : Statement (.trunkFragment event) := of_none fun _ => rfl
theorem trunkGap : Statement .trunkGap := of_none fun _ => rfl
theorem trunkFrameDiscard (frame : LineFrame) : Statement (.trunkFrameDiscard frame) := of_none fun _ => rfl
theorem ack (next : Byte) (payload : List Byte) : Statement (.ack next payload) := by
  intro st f hw hf
  cases hf
  exact ⟨of_decide_eq_true hw, Machine.sealed_checkAgrees .., .inl ⟨(station_range st).1, (station_range st).2, .inr rfl⟩⟩
theorem relay (address tag : Byte) (payload : List Byte) : Statement (.relay address tag payload) := by
  intro st f hw hf
  cases hf
  have h := of_decide_eq_true hw
  exact ⟨h.2.2, Machine.sealed_checkAgrees .., .inr ⟨h.1, h.2.1, rfl⟩⟩
theorem mgmtBadRequest (tag : Byte) (payload : List Byte) : Statement (.mgmtBadRequest tag payload) :=
  of_request (fun _ => rfl) (fun h => of_decide_eq_true (Bool.and_eq_true_iff.1 h).1)
theorem readDevice (tag key item selector : Byte) : Statement (.readDevice tag key item selector) :=
  of_request (fun _ => rfl) (fun _ => Nat.le_of_ble_eq_true rfl)
theorem readBranch (tag key item selector : Byte) : Statement (.readBranch tag key item selector) :=
  of_request (fun _ => rfl) (fun _ => Nat.le_of_ble_eq_true rfl)
theorem readNode (tag key item selector : Byte) : Statement (.readNode tag key item selector) :=
  of_request (fun _ => rfl) (fun _ => Nat.le_of_ble_eq_true rfl)
theorem readSched (tag key item selector : Byte) : Statement (.readSched tag key item selector) :=
  of_request (fun _ => rfl) (fun _ => Nat.le_of_ble_eq_true rfl)
theorem readQueue (tag key item selector : Byte) : Statement (.readQueue tag key item selector) :=
  of_request (fun _ => rfl) (fun _ => Nat.le_of_ble_eq_true rfl)
theorem readFlags (tag key item selector : Byte) : Statement (.readFlags tag key item selector) :=
  of_request (fun _ => rfl) (fun _ => Nat.le_of_ble_eq_true rfl)
theorem readCounters (tag key item selector : Byte) : Statement (.readCounters tag key item selector) :=
  of_request (fun _ => rfl) (fun _ => Nat.le_of_ble_eq_true rfl)
theorem readPool (tag key item selector : Byte) : Statement (.readPool tag key item selector) :=
  of_request (fun _ => rfl) (fun _ => Nat.le_of_ble_eq_true rfl)
theorem writeDevice (tag key item : Byte) (fields : List Byte) :
    Statement (.writeDevice tag key item fields) :=
  of_request (fun _ => rfl) (fun h => Nat.add_le_add_right (of_decide_eq_true h) 4)
theorem writeBranch (tag key item : Byte) (fields : List Byte) :
    Statement (.writeBranch tag key item fields) :=
  of_request (fun _ => rfl) (fun h => Nat.add_le_add_right (of_decide_eq_true h) 4)
theorem writeNode (tag key item : Byte) (fields : List Byte) : Statement (.writeNode tag key item fields) :=
  of_request (fun _ => rfl) (fun h => Nat.add_le_add_right (of_decide_eq_true h) 4)
theorem writeSchedEntry (tag key item : Byte) (fields : List Byte) :
    Statement (.writeSchedEntry tag key item fields) :=
  of_request (fun _ => rfl) (fun h => Nat.add_le_add_right (of_decide_eq_true (Bool.and_eq_true_iff.1 h).2) 4)
theorem writeSchedHeader (tag key : Byte) (fields : List Byte) :
    Statement (.writeSchedHeader tag key fields) :=
  of_request (fun _ => rfl) (fun h => Nat.add_le_add_right (of_decide_eq_true h) 4)
theorem writeReadOnlyTable (tag : Byte) (table : ReadOnlyTable) (key item : Byte) (fields : List Byte) :
    Statement (.writeReadOnlyTable tag table key item fields) :=
  of_request (fun _ => rfl) (fun h => Nat.add_le_add_right (of_decide_eq_true h) 4)
theorem deleteNode (tag address : Byte) : Statement (.deleteNode tag address) :=
  of_request (fun _ => rfl) (fun _ => Nat.le_of_ble_eq_true rfl)
theorem resetHealth (tag address : Byte) : Statement (.resetHealth tag address) :=
  of_request (fun _ => rfl) (fun _ => Nat.le_of_ble_eq_true rfl)
theorem purge (tag address : Byte) : Statement (.purge tag address) :=
  of_request (fun _ => rfl) (fun _ => Nat.le_of_ble_eq_true rfl)
theorem swap (tag branch : Byte) : Statement (.swap tag branch) :=
  of_request (fun _ => rfl) (fun _ => Nat.le_of_ble_eq_true rfl)
theorem setMode (tag branch mode : Byte) : Statement (.setMode tag branch mode) :=
  of_request (fun _ => rfl) (fun _ => Nat.le_of_ble_eq_true rfl)
theorem clearFlags (tag group set : Byte) : Statement (.clearFlags tag group set) :=
  of_request (fun _ => rfl) (fun _ => Nat.le_of_ble_eq_true rfl)
theorem clearCounters (tag group : Byte) : Statement (.clearCounters tag group) :=
  of_request (fun _ => rfl) (fun _ => Nat.le_of_ble_eq_true rfl)
theorem restart (tag : Byte) : Statement (.restart tag) :=
  of_request (fun _ => rfl) (fun _ => Nat.le_of_ble_eq_true rfl)
theorem trunkFrameEnd : Statement .trunkFrameEnd := of_none fun _ => rfl
theorem retransmitTimerExpiry : Statement .retransmitTimerExpiry := of_none fun _ => rfl
theorem cycleTick (b : Branch) : Statement (.cycleTick b) := of_none fun _ => rfl
theorem commandExpiry (b : Branch) : Statement (.commandExpiry b) := of_none fun _ => rfl
theorem attemptFrameSent (b : Branch) : Statement (.attemptFrameSent b) := of_none fun _ => rfl
theorem nothingHeard (b : Branch) : Statement (.nothingHeard b) := of_none fun _ => rfl
theorem branchReplyComplete (b : Branch) (frame : LineFrame) : Statement (.branchReplyComplete b frame) := of_none fun _ => rfl
theorem branchFragment (b : Branch) (address : Byte) (cause : FragmentCause) :
    Statement (.branchFragment b address cause) := of_none fun _ => rfl
theorem branchGap (b : Branch) (address : Byte) : Statement (.branchGap b address) := of_none fun _ => rfl
theorem settlingEnd (b : Branch) : Statement (.settlingEnd b) := of_none fun _ => rfl
theorem syncSlotEnd (b : Branch) : Statement (.syncSlotEnd b) := of_none fun _ => rfl
theorem gapSlotEnd (b : Branch) : Statement (.gapSlotEnd b) := of_none fun _ => rfl
theorem supplyRise (b : Branch) (above : Fin 9) : Statement (.supplyRise b above) := of_none fun _ => rfl
theorem supplyFall (b : Branch) (above : Fin 9) : Statement (.supplyFall b above) := of_none fun _ => rfl
theorem qualifyTimerExpiry (b : Branch) : Statement (.qualifyTimerExpiry b) := of_none fun _ => rfl
theorem restoreTimerExpiry (b : Branch) : Statement (.restoreTimerExpiry b) := of_none fun _ => rfl
theorem trunkCharacter (marker : Bool) (value : Byte) : Statement (.trunkCharacter marker value) := of_none fun _ => rfl
theorem branchCharacter (b : Branch) (marker : Bool) (value : Byte) :
    Statement (.branchCharacter b marker value) := of_none fun _ => rfl
theorem mgmtBadTable (tag : Byte) (write : Bool) (table key item : Byte) (rest : List Byte) :
    Statement (.mgmtBadTable tag write table key item rest) := by
  refine of_request (fun _ => rfl) fun h => ?_
  simp only [Instr.wf, Bool.and_eq_true] at h
  cases write
  · have := of_decide_eq_true h.2
    simp [this]
  · have := of_decide_eq_true (Bool.and_eq_true_iff.1 h.2).1
    simp; omega

end TrunkBytes

end Sys2Proof.Laws
end

