-- ==== Sys2Proof/Laws/Pool.lean ====
section
/-! SUPPORT. The pool: what an admission and the removal of several queued commands do to its entries, its counts and the
credit count, and how a response fares. -/
namespace Sys2Proof.Machine

/-- The RESULT entry of a removed command (R97). -/
def removedEntry (st : ResultStatus) (c : Command) : Entry :=
  { cls := .result, payload := resultPayload c.tag c.node st [], state := .queued }

/-- Removing several commands: their RESULTs join the pool in order, one credit each, and nothing else changes (R97,
R122). -/
theorem State.convertAll_eq (st : ResultStatus) (l : List Command) (s : State) :
    s.convertAll st l =
      { s with pool := s.pool ++ l.map (removedEntry st), credits := s.credits - l.length } := by
  induction l generalizing s with
  | nil => simp [State.convertAll]
  | cons c rest ih =>
    simp only [State.convertAll, ih, State.convert, State.addEntry, List.map_cons, List.length_cons, removedEntry]
    congr 1
    · simp
    · omega

/-- DQb emptied (R97, R104, R187). -/
theorem State.flushQueue_eq (s : State) (b : Branch) (st : ResultStatus) :
    s.flushQueue b st =
      { s.onBr b fun B => { B with queue := [] } with
        pool := s.pool ++ (s.br b).queue.map (removedEntry st)
        credits := s.credits - (s.br b).queue.length } := by
  simp [State.flushQueue, State.convertAll_eq]

/-- The entries of DQb for one node removed (R97, R100). -/
theorem State.purgeQueue_eq (s : State) (a : Nat) (b : Branch) :
    s.purgeQueue a b =
      { s.onBr b fun B => { B with queue := B.queue.filter fun c => c.node != a } with
        pool := s.pool ++ ((s.br b).queue.filter fun c => c.node == a).map (removedEntry .purged)
        credits := s.credits - ((s.br b).queue.filter fun c => c.node == a).length } := by
  simp [State.purgeQueue, State.convertAll_eq]

/-- An admission raises the occupancy by one (R119). -/
@[simp] theorem State.addEntry_occupancy (s : State) (c : UplinkClass) (p : List Byte) :
    (s.addEntry c p).occupancy = s.occupancy + 1 := by
  simp [State.occupancy]; omega

/-- A conversion of a credit that is owed leaves the occupancy (R119). -/
theorem State.convert_occupancy (s : State) (t : Byte) (n : Nat) (st : ResultStatus) (r : List Byte)
    (h : 0 < s.credits) : (s.convert t n st r).occupancy = s.occupancy := by
  simp [State.occupancy]; omega

@[simp] theorem State.addEntry_sentCount (s : State) (c : UplinkClass) (p : List Byte) :
    (s.addEntry c p).sentCount = s.sentCount := by
  simp [State.sentCount, Entry.isQueued]

@[simp] theorem State.addEntry_queuedCount (s : State) (c d : UplinkClass) (p : List Byte) :
    (s.addEntry c p).queuedCount d = s.queuedCount d + if c = d then 1 else 0 := by
  simp only [State.queuedCount, State.addEntry_pool, List.countP_append, Nat.add_left_cancel_iff]
  by_cases h : c = d <;> simp [Entry.isQueued, h]

/-- A response is admitted, or dropped with its flag and its count (R121, R158). -/
theorem State.respond_cases (s : State) (tag : Byte) (r : Reply) :
    (s.occupancy < poolSize ∧ s.queuedCount .mgmtResp < responseLimit ∧
        s.respond tag r = s.addEntry .mgmtResp (responsePayload tag r.status r.data)) ∨
      ((poolSize ≤ s.occupancy ∨ responseLimit ≤ s.queuedCount .mgmtResp) ∧
        s.respond tag r =
          { s.signalDevice .mgmtDropped with droppedResponses := bump s.droppedResponses }) := by
  unfold State.respond
  split
  · rename_i h; exact .inl ⟨h.1, h.2, rfl⟩
  · rename_i h; exact .inr ⟨by omega, rfl⟩

end Sys2Proof.Machine
end

