-- ==== Sys2Proof/Laws/Requests.lean ====
section
/-! SUPPORT. Management requests: what gathering the field items keeps, what the requests on a record come to, and which
writes are steps of one branch. -/
namespace Sys2Proof.Machine

/-- What holds of a write that carries nothing, and is kept by every field item, holds of what is gathered (R165). -/
theorem Walk.gather_keeps {α : Type} {P : α → Prop} {w : Walk} {start out : α} {add : α → FieldItem → Option α}
    (h0 : P start) (hadd : ∀ a i a', P a → add a i = some a' → P a') (h : w.gather start add = some out) : P out := by
  unfold Walk.gather at h
  split at h
  · cases h
  · have key : ∀ (l : List FieldItem) (acc : Option α), (∀ a, acc = some a → P a) →
        ∀ a, l.foldl (fun acc i => acc.bind fun a => add a i) acc = some a → P a := by
      intro l
      induction l with
      | nil => intro acc hacc a ha; exact hacc a ha
      | cons i rest ih =>
        intro acc hacc a ha
        refine ih (acc.bind fun a => add a i) (fun b hb => ?_) a ha
        rcases acc with _ | c
        · cases hb
        · exact hadd c i b (hacc c rfl) hb
    exact key _ _ (fun a ha => by cases ha; exact h0) _ h

/-- A gathered field that is named was named once, with a value in its range (R165). -/
theorem once_some {α : Type} {held new : Option α} {x : Option α} (h : once held new = some x) :
    held = none ∧ x = new ∧ new.isSome = true := by
  unfold once at h
  split at h
  · cases h; exact ⟨rfl, rfl, rfl⟩
  · cases h

theorem inRange_some {low high n v : Nat} (h : inRange low high n = some v) : v = n ∧ low ≤ v ∧ v ≤ high := by
  unfold inRange at h
  split at h
  · cases h; exact ⟨rfl, ‹_›⟩
  · cases h

/-- A request on one node: out of range, not held, or carried out (R168). -/
theorem onRecord_cases (a : Byte) (act : State → State) (s : State) :
    ((a.toNat < 1 ∨ 239 < a.toNat) ∧ onRecord a act s = (s, .refused .badIndex)) ∨
      (1 ≤ a.toNat ∧ a.toNat ≤ 239 ∧ s.node? a.toNat = none ∧ onRecord a act s = (s, .refused .noEntry)) ∨
      (∃ r, s.node? a.toNat = some r ∧ 1 ≤ a.toNat ∧ a.toNat ≤ 239 ∧ onRecord a act s = (act s, .done)) := by
  unfold onRecord
  split
  · exact .inl ⟨‹_›, rfl⟩
  · rename_i h
    rcases hn : s.node? a.toNat with _ | r
    · exact .inr (.inl ⟨by omega, by omega, rfl, rfl⟩)
    · exact .inr (.inr ⟨r, rfl, by omega, by omega, rfl⟩)

/-- A SET_MODE that is carried out is a step of the branch it names (R102). -/
theorem branchStep_setMode {b : Branch} {m : Mode} {branch mode : Byte} {s : State}
    (hb : Branch.ofNat? branch.toNat = some b) (hm : Mode.ofByte? mode = some m) :
    BranchStep b s (requestSetMode branch mode s).1 := by
  simpa [requestSetMode, hb, hm] using branchStep_requestMode m

end Sys2Proof.Machine
end

