-- ==== Sys2Proof/Tests/Slice0.lean ====
section
/-! SUPPORT. The model's own tests: ill-formed commands, figures the manual gives, short sequences of commands, and a
witness for the hypotheses of each statement. -/
set_option maxRecDepth 20000

namespace Sys2Proof.Tests
open Sys2Proof Sys2Proof.Machine

/-! ### Ill-formed commands -/

theorem test_wf_trunkFragment :
    (Instr.trunkFragment (.character false 33)).wf = true ∧ (Instr.trunkFragment (.character false 32)).wf = false := by
  decide

theorem test_wf_payloads_of_33 :
    (Instr.trunkFrameDiscard ⟨5, 0x53, 0, List.replicate 33 0, 0⟩).wf = false ∧
    (Instr.ack 0 (List.replicate 33 0)).wf = false ∧ (Instr.relay 5 0 (List.replicate 33 0)).wf = false ∧
    (Instr.mgmtBadRequest 0 (List.replicate 33 0)).wf = false ∧
    (Instr.branchReplyComplete .b0 ⟨5, 0x20, 0, List.replicate 25 0, 0⟩).wf = false := by decide

theorem test_wf_relay_address :
    (Instr.relay 0 0 []).wf = false ∧ (Instr.relay 240 0 []).wf = false ∧ (Instr.relay 1 0 []).wf = true ∧
    (Instr.relay 239 0 []).wf = true := by decide

theorem test_wf_mgmtBadRequest :
    (Instr.mgmtBadRequest 0 [0x0A]).wf = false ∧ (Instr.mgmtBadRequest 0 []).wf = true ∧
    (Instr.mgmtBadRequest 0 [0x0B]).wf = true ∧ (Instr.mgmtBadRequest 0 [0x02, 0x03, 5, 0, 0x03]).wf = true := by decide

theorem test_wf_fields_of_29 :
    (Instr.writeDevice 0 0 0 (List.replicate 29 0)).wf = false ∧
    (Instr.writeBranch 0 0 0 (List.replicate 29 0)).wf = false ∧
    (Instr.writeNode 0 0 0 (List.replicate 29 0)).wf = false ∧
    (Instr.writeSchedEntry 0 0 0 (List.replicate 29 0)).wf = false ∧
    (Instr.writeSchedHeader 0 0 (List.replicate 29 0)).wf = false ∧
    (Instr.writeReadOnlyTable 0 .pool 0 0 (List.replicate 29 0)).wf = false ∧
    (Instr.mgmtBadTable 0 true 9 0 0 (List.replicate 29 0)).wf = false := by decide

theorem test_wf_writeSchedEntry_header_item : (Instr.writeSchedEntry 0 0 0xFF []).wf = false := by decide

theorem test_wf_mgmtBadTable :
    (Instr.mgmtBadTable 0 false 8 0 0 [0]).wf = false ∧ (Instr.mgmtBadTable 0 false 9 0 0 []).wf = false ∧
    (Instr.mgmtBadTable 0 true 0 0 0 [0x03]).wf = false ∧ (Instr.mgmtBadTable 0 false 9 0 0 [0]).wf = true := by decide

/-! ### States -/

/-- A frame on the trunk, so that the Delivery Unit makes no choice. -/
def onLine : LineFrame := ⟨240, 0x61, 0, [], 0⟩

/-- A part whose trunk is UP with a frame being sent. -/
def busy (s : State) : State :=
  { s with du := { s.du with trunk := .up, transmitter := some onLine } }

/-- A record at an address of branch b0, fresh (R28). -/
def record (a : Nat) (h : Health) : NodeRecord := { NodeWrite.create NodeWrite.empty a with health := h }

/-- Branch b0 as given, on a busy part that holds one record at address 5. -/
def onB0 (h : Health) (f : BranchState → BranchState) : State :=
  (busy { State.reset with nodes := [record 5 h] }).onBr .b0 f

/-- A branch in a mode, its supply good. -/
def running (m : Mode) (B : BranchState) : BranchState :=
  { B with current := m, requested := m, supply := 8, sup := { B.sup with state := .normal } }

/-- A command for node 5. -/
def command (age lifetime : Nat) : Command := { tag := 7, node := 5, payload := [1, 2], age := age, lifetime := lifetime }

/-- A poll of node 5. -/
def pollWork (retries : Nat) : PollWork :=
  { node := 5, window := 20, retriesLeft := retries, frame := .poll, failure := none, reply := none
    quietFrom := .handOver }

/-- A command to node 5. -/
def commandWork : PollWork := { pollWork 0 with frame := .cmd true { tag := 7, node := 5, payload := [1, 2] } }

/-- The slot of a poll or transaction in a phase. -/
def slotOf (ph : Phase) (w : PollWork) (B : BranchState) : BranchState :=
  { B with slot := some { rate := .r19200, phase := ph, work := .poll w } }

/-- A QUEUED entry, and a SENT one. -/
def queued (c : UplinkClass) : Entry := { cls := c, payload := [1, 2], state := .queued }
def sent (q : BitVec 4) : Entry := { cls := .report, payload := [1, 2], state := .sent q }

/-! ### Figures of the manual -/

/-- R5, R191: station addresses 240 to 247. -/
theorem test_station : ({ State.reset with strap := 7 } : State).station = 247 ∧ State.reset.station = 240 := by decide

/-- R9: the reference value. -/
theorem test_check_reference : checkOf [0x31, 0x32, 0x33, 0x34, 0x35, 0x36, 0x37, 0x38, 0x39] = 0x29B1#16 := by decide

/-- R184: level n is 15 + n volts. -/
theorem test_thresholds : (List.range 8).map thresholdVolts = [15, 16, 17, 18, 19, 20, 21, 22] := by decide

/-- R5, R6: the rates. -/
theorem test_rates :
    ([0, 1, 2, 3] : List (Fin 4)).map trunkBitsPerSecond = [115200, 230400, 460800, 921600] ∧
    [LineRate.r9600, .r19200, .r38400, .r57600, .r115200].map LineRate.bitsPerSecond =
      [9600, 19200, 38400, 57600, 115200] := by decide

/-- R176: a NODE_LOST for node 17 followed by a NODE_BACK for node 40 leaves the byte at 40, with both flags set. -/
theorem test_lastNode :
    let s := (State.reset.signalNode .b1 .nodeLost 17).signalNode .b1 .nodeBack 40
    s.eu.lastNode.b1 = 40 ∧ s.eu.groups.b1.flags = 0x03 ∧ s.eu.groups.b1.pending = true := by decide

/-- R81, R128, R129: a REPORT and a RESULT, byte by byte. -/
theorem test_payloads :
    reportPayload 17 .b2 0x0102 [0xAA] = [17, 2, 1, 2, 1, 0xAA] ∧ resultPayload 7 5 .lineFault [] = [7, 5, 4, 0] := by
  decide

/-- R41, R191: the images of the three kinds of entry. -/
theorem test_entry_images :
    (SlotEntry.poll 5 20 1).data = [1, 5, 20, 1, 0, 0] ∧ SlotEntry.sync.data = [2, 0, 0, 0, 0, 0] ∧
    (SlotEntry.gap 0x0102).data = [3, 0, 0, 0, 1, 2] := by decide

/-! ### Short sequences -/

/-- R135, R151: the first good frame after a reset finds the trunk DOWN, and the ALERT that RESTART made pending goes out
first, number 0, with both flags and cause POWER. -/
theorem test_first_alert :
    (match execAck 0 [] State.reset with
     | .next t => (t.du.trunk, t.du.nextSeq, t.pool, t.eu.device.pending)
     | .fault _ | .refused _ => (.down, 0, [], true)) =
      (.up, 1, [{ cls := .alert, payload := [0x01, 0x10, 0x11, 0], state := .sent 0 }], false) := by decide

/-- R10: the characters of an ACK frame, one by one, come to the ACK. -/
theorem test_receive_ack :
    (State.reset.receiveAll (LineFrame.sealed 240 0x52 0 []).characters).du =
      (match execAck 0 [] State.reset with
       | .next t => t.du
       | .fault _ | .refused _ => State.reset.du) := by decide

/-- R28, R158: a record is created and the response is sent at once. -/
theorem test_create_node :
    (match execWriteNode 9 5 0 [0x01, 2, 0x03, 1] { State.reset with du := { State.reset.du with trunk := .up }, eu := { State.reset.eu with device := { State.reset.eu.device with pending := false } } } with
     | .next t => (t.nodes, t.pool)
     | .fault _ | .refused _ => ([], [])) =
      ([{ NodeWrite.create NodeWrite.empty 5 with branch := .b2, threshold := 1 }],
        [{ cls := .mgmtResp, payload := [9, 0], state := .sent 0 }]) := by decide

/-- R24: with a threshold of 1 the first miss takes a record OFFLINE, with NODE_LOST. -/
theorem test_threshold_one :
    let s := ({ State.reset with nodes := [{ record 5 .online with threshold := 1 }] } : State).writeBack .b0
      { pollWork 0 with failure := some .noReply }
    (s.node? 5).map (fun r => (r.health, r.misses, r.countdown)) = some (.offline, 1, 8) ∧
      s.eu.groups.b0.flags = 0x01 := by decide

/-- R22: an OFFLINE record's countdown, the probe, and the reload. -/
theorem test_probe :
    let s := (onB0 .offline fun B => { running .scheduled B with
      bankA := { B.bankA with entries := B.bankA.entries.set 0 (.poll 5 20 1), length := 1 } }).onNode 5
        fun r => { r with countdown := 2 }
    ((s.startSlot .b0).br .b0).slot = none ∧ ((s.startSlot .b0).node? 5).map NodeRecord.countdown = some 1 ∧
    (((s.onNode 5 fun r => { r with countdown := 1 }).startSlot .b0).node? 5).map NodeRecord.countdown = some 8 ∧
    (((s.onNode 5 fun r => { r with countdown := 1 }).startSlot .b0).br .b0).slot.isSome = true := by decide

/-- R187, R129: a fault answers the in-flight command first, and then the queue. -/
theorem test_fault_order :
    let s := onB0 .online fun B => { slotOf .listening commandWork (running .scheduled B) with
      queue := [{ command 0 9 with tag := 8 }], line := .hunting
      sup := { B.sup with state := .lowPending, qualify := some 10 } }
    (s.enterFault .b0).pool.map Entry.payload = [[7, 5, 4, 0], [8, 5, 4, 0]] := by decide

/-- R51: a cycle timer one short of its period waits as a tick, and returns to 0. -/
theorem test_tick :
    let s := onB0 .online fun B => { B with cycle := { B.cycle with timer := some 999 } }
    s.tick.pending = [.cycleTick .b0] ∧ (s.tick.br .b0).cycle.timer = some 0 := by decide

/-- The queue: an empty one ticks, and no table word spells a command. -/
theorem test_queue :
    (step State.reset = .next State.reset.tick) ∧
    step { State.reset with pending := [.trunkGap] } = .next State.reset ∧
    State.reset.withFetchWord 8 0 = State.reset := ⟨rfl, rfl, rfl⟩

/-! ### Witnesses: states and operands that meet the hypotheses of each statement

Statements without hypotheses have none here. A statement of several clauses has a witness for each, at the boundary of
its range. -/

theorem test_hyp_StepRunsFront : ({ State.reset with pending := [.trunkGap] } : State).pending = .trunkGap :: [] := rfl

theorem test_hyp_EmptyQueueTick : State.reset.pending = [] := rfl

theorem test_hyp_RowsWithoutTheirEvent :
    State.reset.receiver = .hunting ∧ State.reset.du.transmitter = none ∧ State.reset.du.timer = none ∧
    (State.reset.br .b3).cycle.timer = none ∧ (State.reset.br .b3).sup.state ≠ .lowPending ∧
    (State.reset.br .b3).sup.state ≠ .restorePending ∧ (State.reset.br .b3).slot = none ∧
    (State.reset.br .b3).line = .quiet ∧ FragmentCause.overLength ≠ .framingError := by decide

/-- At two samples a bit time: idle, a false start, a character, a line held at 0 for four character times, and after it
the return to 1 and the next character (R2). -/
theorem test_line_held_low :
    Sampler.run 1 .looking [true, true, false, true, true] = (.looking, []) ∧
    Sampler.run 1 .looking (lineLevels 1 (characterBits true 0xA5)) = (.looking, [.character true 0xA5]) ∧
    Sampler.run 1 .looking (List.replicate 88 false ++ [true] ++ lineLevels 1 (characterBits false 3)) =
      (.looking, [.framingError, .character false 3]) := by decide

/-- The line at 0 up to the middle of the stop bit, and one sample longer; and the longest fall that is a false start. -/
theorem test_hyp_LineReception :
    1 ≤ 2 ∧ (2 ≤ 2 ∧ 2 < 2 + 1) ∧ (42 ≤ 21 * 2 ∧ 21 * 2 < 43) ∧
    Sampler.run 2 .looking [false, false, true] = (.looking, []) ∧
    (Sampler.run 2 .looking (List.replicate 42 false)).2 = [] ∧
    Sampler.run 2 .looking (List.replicate 43 false) = (.heldLow, [.framingError]) := by decide

/-- LEN 0 and LEN 32 complete, LEN 33 abandoned, and a frame still partial at its last character but one. -/
theorem test_hyp_TrunkReception :
    let f0 := LineFrame.sealed 240 0x52 0 []
    let f32 := LineFrame.sealed 5 0x53 0 (List.replicate 32 0)
    f0.values.dropLast ++ [f0.values.getLast?.getD 0] = f0.values ∧ f0.payload.length ≤ 32 ∧
    f32.values.dropLast ++ [f32.values.getLast?.getD 0] = f32.values ∧ f32.payload.length ≤ 32 ∧
    ([5, 0x53, 0] : List Byte).length = 3 ∧ 32 < (33 : Byte).toNat := by decide

theorem test_hyp_TrunkReception_partial :
    partialFrame 32 ([240] ++ [0x52]) ∧
    partialFrame 32 ([5, 0x53, 0] ++ [32]) ∧ ([5, 0x53, 0] ++ [32] : List Byte).length < 6 + 32 :=
  ⟨⟨by decide, trivial⟩,
    ⟨by decide, show (32 : Byte).toNat ≤ 32 ∧ _ < 6 + (32 : Byte).toNat from ⟨by decide, by decide⟩⟩, by decide⟩

/-- The boundary addresses 0, 248, 1, 239, the station and another station, with each kind. -/
theorem test_hyp_CompleteFrameJudged :
    (⟨240, 0x52, 0, [], 0⟩ : LineFrame).checkAgrees = false ∧
    (∀ a ∈ ([0, 1, 239, 240, 241, 247, 248, 255] : List Byte), ∀ k ∈ ([0x51, 0x52, 0x53] : List Byte),
      (LineFrame.sealed a k 0 []).checkAgrees = true) ∧
    State.reset.station = 240 ∧ State.reset.du.trunk = .down ∧ (busy State.reset).du.trunk ≠ .down := by decide

theorem test_hyp_RowsAreTheirFrames :
    (Instr.relay 239 7 (List.replicate 32 0)).wf = true ∧
    ((Instr.relay 239 7 (List.replicate 32 0)).trunkFrame State.reset.station).isSome = true ∧
    ((Instr.restart 7).trunkFrame State.reset.station).isSome = true ∧ State.reset.receiver = .hunting ∧
    (Instr.restart 7).request = some (7, [0x0A]) := by decide

/-- Two entries SENT under 15 and 0, so that S = 15: NEXT 15 repeats, 0 and 1 progress, 2 is stale; a part with none
SENT, and one with eight. -/
theorem test_hyp_AckJudged :
    let s : State := busy { State.reset with pool := [sent 15, queued .report, sent 0] }
    let t : State := { s with du := { s.du with nextSeq := 1 } }
    t.arrived.sentCount = 2 ∧ t.arrived.sentSeqs = seqsFrom 15 2 ∧ t.arrived.du.nextSeq = 15 + BitVec.ofNat 4 2 ∧
    ([15, 0, 1, 2] : List Nat).map (fun next => (next + 16 - (15 : BitVec 4).toNat) % 16) = [0, 1, 2, 3] ∧
    (busy State.reset).arrived.sentCount = 0 ∧ (busy State.reset).arrived.sentSeqs = seqsFrom 0 0 ∧
    (let e : State := busy { State.reset with pool := (List.range 8).map fun k => sent (BitVec.ofNat 4 k) }
     let f : State := { e with du := { e.du with nextSeq := 8 } }
     f.arrived.sentCount = 8 ∧ f.arrived.sentSeqs = seqsFrom 0 8 ∧ f.arrived.du.nextSeq = 0 + BitVec.ofNat 4 8) := by
  decide

/-- The fail limit is 6: a count of 4 retries, a count of 5 goes DOWN. -/
theorem test_hyp_RetransmitTimerExpires :
    let at_ (n : Nat) : State := { State.reset with du := { State.reset.du with timer := some 20, timeoutCount := n } }
    (at_ 4).du.timer ≠ none ∧ (at_ 4).du.timeoutCount + 1 < (at_ 4).du.failLimit ∧
    (at_ 5).du.timer ≠ none ∧ (at_ 5).du.failLimit ≤ (at_ 5).du.timeoutCount + 1 := by decide

/-- A round open; a full window, and one with room for one; each class waiting alone; an ALERT to make, with the pool one
short of full and full. -/
theorem test_hyp_ArbiterOrder :
    let s := busy State.reset
    let with_ (pool : List Entry) (window : Nat) (told : Bool) : State :=
      { s with pool := pool, du := { s.du with window := window }, eu := if told then s.eu.told else s.eu }
    s.du.transmitter ≠ none ∧ s.du.trunk ≠ .down ∧ s.du.round = none ∧
    (with_ [sent 0] 1 true).du.window ≤ (with_ [sent 0] 1 true).sentCount ∧
    (with_ [sent 0] 2 true).sentCount < (with_ [sent 0] 2 true).du.window ∧
    (∀ c ∈ [UplinkClass.mgmtResp, .result, .report],
      ∃ e ∈ (with_ [queued c] 8 true).pool, e.state = .queued ∧ e.cls = c) ∧
    (with_ [] 8 false).eu.anyPending = true ∧ (with_ (List.replicate 47 (queued .result)) 8 false).occupancy < 48 ∧
    48 ≤ (with_ (List.replicate 48 (queued .result)) 8 false).occupancy ∧ (with_ [] 8 true).eu.anyPending = false := by
  decide

theorem test_hyp_Transmissions :
    ([queued .result, sent 3, queued .report] : List Entry) = [queued .result, sent 3] ++ queued .report :: [] ∧
    (queued .report).state = .queued ∧
    (∀ x ∈ [queued .result, sent 3], ¬ (x.state = .queued ∧ x.cls = (queued .report).cls)) ∧
    ([sent 2, sent 3] : List Entry) = [sent 2] ++ sent 3 :: [] ∧ (sent 3).state = .sent 3 ∧
    (∀ x ∈ [sent 2], x.state ≠ .sent 3) ∧ State.reset.eu.anyPending = true ∧ State.reset.occupancy < 48 ∧
    State.reset.queuedCount .alert = 0 ∧ State.reset.eu.told.anyPending = false := by decide

/-- Every decision of a relay, with the pool, the payload and the queue each at their limit. -/
theorem test_hyp_RelayDecided :
    let s := onB0 .online fun B => { running .scheduled B with queue := List.replicate 7 (command 0 9) }
    48 ≤ ({ s with credits := 48 } : State).arrived.occupancy ∧ ({ s with credits := 47 } : State).arrived.occupancy < 48 ∧
    24 < (List.replicate 25 (0 : Byte)).length ∧ (List.replicate 24 (0 : Byte)).length ≤ 24 ∧
    s.arrived.node? 6 = none ∧ (s.arrived.node? 5).map NodeRecord.branch = some .b0 ∧
    (s.arrived.br .b0).current ≠ .off ∧ (s.arrived.br .b0).requested ≠ .off ∧ (s.arrived.br .b1).current = .off ∧
    (s.arrived.br .b0).sup.state = .normal ∧ (s.arrived.br .b1).sup.state ≠ .normal ∧
    (s.arrived.br .b1).sup.state ≠ .lowPending ∧ (s.arrived.br .b0).queue.length < 8 ∧
    8 ≤ ((s.onBr .b0 fun B => { B with queue := command 0 9 :: B.queue }).arrived.br .b0).queue.length := by decide

theorem test_hyp_ReadPlainTables : 3 < (4 : Byte).toNat ∧ 4 < (5 : Byte).toNat := by decide

/-- Addresses 1, 5 and 239 held: keys 0 and 240 and item 1 outside, selector 4 outside, found and not found with and
without "next". -/
theorem test_hyp_ReadNode :
    let l := [record 1 .online, record 5 .online, record 239 .online]
    (l.Pairwise fun q r => q.address < r.address) ∧ (0 : Byte).getLsbD 1 = false ∧ (2 : Byte).getLsbD 1 = true ∧
    239 < (240 : Byte).toNat ∧ 3 < (4 : Byte).toNat ∧ (3 : Byte).toNat ≤ 3 ∧ (∀ r ∈ l, r.address ≠ (2 : Byte).toNat) ∧
    record 239 .online ∈ l ∧ (record 239 .online).address = (239 : Byte).toNat ∧
    (∀ r ∈ l, ¬ (239 : Byte).toNat < r.address) ∧ record 1 .online ∈ l ∧
    (∀ q ∈ l, (0 : Byte).toNat < q.address → (record 1 .online).address ≤ q.address) := by decide

/-- Items 31 and 32, a header item other than 0, selectors 3 and 4, queue indices 7 and 8, an index held and one not. -/
theorem test_hyp_ReadSchedAndQueue :
    let s := onB0 .online fun B => { B with queue := List.replicate 8 (command 0 9) }
    3 < (4 : Byte).toNat ∧ (3 : Byte) = BitVec.ofNat 8 Branch.b3.toNat ∧ 31 < (32 : Byte).toNat ∧
    (31 : Byte).toNat < 32 ∧ ((1 : Byte) ≠ 0 ∧ ((2 : Byte) = 2 ∨ (2 : Byte) = 3)) ∧ 3 < (4 : Byte).toNat ∧
    7 < (8 : Byte).toNat ∧ (7 : Byte).toNat ≤ 7 ∧ (s.arrived.br .b0).queue[(7 : Byte).toNat]? = some (command 0 9) ∧
    (s.arrived.br .b1).queue.length ≤ (0 : Byte).toNat := by decide

/-- Room with three responses QUEUED; four QUEUED; no room. -/
theorem test_hyp_AnswersAreOffered :
    let s (k : Nat) : State := { State.reset with pool := List.replicate k (queued .mgmtResp) }
    (s 3).occupancy < 48 ∧ (s 3).queuedCount .mgmtResp < 4 ∧ 4 ≤ (s 4).queuedCount .mgmtResp ∧
    48 ≤ ({ State.reset with credits := 48 } : State).occupancy := by decide

theorem test_hyp_ReadsAndDeliveryFrame :
    Instr.readNode 0 5 0 0 ∈ [Instr.readDevice 0 5 0 0, .readBranch 0 5 0 0, .readNode 0 5 0 0] ∧
    exec (.readNode 0 5 0 0) State.reset = .next (State.reset.requestFrame 0 (reading (readNode 5 0 0))) ∧
    exec .trunkFrameEnd State.reset = .next State.reset := ⟨by decide, rfl, rfl⟩

/-- A walk that ends in an item, one that does not, and read-only codes of each table at both ends. -/
theorem test_hyp_WriteFormJudged :
    walk [0x03] = none ∧ walk [0x15, 2, 0] = none ∧ (walk [0x03, 2, 0x60]).map Walk.unlisted = some true ∧
    (fieldWidth 0x03 = some (.bytes 1) ∧ fieldWidth 0x15 = some .counted ∧ fieldWidth 0x60 = none) ∧
    (walk [0x48, 0, 0, 0x4D, 0]).map (fun w => w.items.map FieldItem.code) = some [0x48, 0x4D] ∧
    (walk [0x38, 0, 0x3E, 0, 0]).map (fun w => w.items.map FieldItem.code) = some [0x38, 0x3E] ∧
    (walk [0x10, 0, 0x17, 0, 0]).map (fun w => w.items.map FieldItem.code) = some [0x10, 0x17] := by decide

/-- A field not yet named in range; the same code with another value after another item; codes next to each table's. -/
theorem test_hyp_FieldRanges :
    NodeWrite.empty.threshold = none ∧ DeviceWrite.empty.enables.get .b3 = none ∧
    Walk.gather ⟨[⟨0x03, [4]⟩, ⟨0x04, [9]⟩, ⟨0x03, [5]⟩], false⟩ NodeWrite.empty NodeWrite.add = none ∧
    ({ NodeWrite.empty with threshold := some 4, divisor := some 9 } : NodeWrite).threshold ≠ none ∧
    Walk.gather ⟨[⟨0x46, [0x7F]⟩, ⟨0x46, [0]⟩], false⟩ DeviceWrite.empty DeviceWrite.add = none ∧
    NodeWrite.empty.add ⟨9, [1]⟩ = none ∧ BranchWrite.empty.add ⟨0x2F, [1]⟩ = none ∧
    NodeWrite.empty.add ⟨0x03, [15]⟩ = some { NodeWrite.empty with threshold := some 15 } ∧
    BranchWrite.empty.add ⟨0x32, [7]⟩ = some { BranchWrite.empty with level := some 7 } ∧
    DeviceWrite.empty.add ⟨0x40, [8]⟩ = some { DeviceWrite.empty with window := some 8 } ∧
    HeaderWrite.empty.add ⟨0x28, [32]⟩ = some { HeaderWrite.empty with length := some 32 } ∧
    EntryWrite.empty.add ⟨0x20, [2]⟩ = some { EntryWrite.empty with kind := some 2 } ∧
    ({ EntryWrite.empty with kind := some 2 } : EntryWrite).entry = some .sync := by decide

/-- Good and bad field items, none of them read-only. -/
theorem test_hyp_WriteDevice :
    (∃ w, walk [0x40, 1, 0x41, 2] = some w ∧ (∀ i ∈ w.items, ¬ (0x48 ≤ i.code ∧ i.code ≤ 0x4D)) ∧
      (w.gather DeviceWrite.empty DeviceWrite.add).isSome = true) ∧
    (∃ w, walk [0x40, 9] = some w ∧ w.gather DeviceWrite.empty DeviceWrite.add = none) := by
  refine ⟨⟨_, rfl, ?_, ?_⟩, ⟨_, rfl, ?_⟩⟩ <;> decide

/-- Every case of supervision and level: a branch at each side of its threshold, in each state, with what a write makes of
its settings. -/
theorem test_hyp_WriteBranch :
    let below := (running .scheduled (State.reset.br .b0)).above
    (∃ w, walk [0x31, 0, 0x32, 7] = some w ∧ (∀ i ∈ w.items, ¬ (0x38 ≤ i.code ∧ i.code ≤ 0x3E)) ∧
      w.gather BranchWrite.empty BranchWrite.add =
        some { BranchWrite.empty with enabled := some false, level := some 7 }) ∧
    (∃ w, walk [0x32, 8] = some w ∧ w.gather BranchWrite.empty BranchWrite.add = none) ∧
    below = true ∧ (State.reset.br .b0).above = false ∧ 3 < (4 : Byte).toNat ∧
    (3 : Byte) = BitVec.ofNat 8 Branch.b3.toNat ∧ reportsAbove 4 3 = true ∧ reportsAbove 4 4 = false := by
  refine ⟨⟨_, rfl, ?_, ?_⟩, ⟨_, rfl, ?_⟩, ?_, ?_, ?_, ?_, ?_, ?_⟩ <;> decide

/-- A table of 95 and of 96 records, a record held in each state, and writes that carry active and a threshold. -/
theorem test_hyp_WriteNode :
    let full (n : Nat) : List NodeRecord := (List.range n).map fun k => record (k + 1) .online
    (full 95).length < 96 ∧ 96 ≤ (full 96).length ∧ findNode 97 (full 96) = none ∧ findNode 96 (full 95) = none ∧
    (∃ w, walk [0x02, 0, 0x03, 2] = some w ∧ (∀ i ∈ w.items, ¬ (0x10 ≤ i.code ∧ i.code ≤ 0x17)) ∧
      w.gather NodeWrite.empty NodeWrite.add =
        some { NodeWrite.empty with active := some false, threshold := some 2 }) ∧
    (∃ w, walk [0x03, 16] = some w ∧ w.gather NodeWrite.empty NodeWrite.add = none) ∧
    (∀ h ∈ [Health.inactive, .online, .suspect, .offline],
      ((onB0 h id).arrived.node? (5 : Byte).toNat).map NodeRecord.health = some h) ∧
    (239 : Byte).toNat ≤ 239 ∧ 239 < (240 : Byte).toNat := by
  refine ⟨by decide, by decide, by decide, by decide, ⟨_, rfl, ?_, ?_⟩, ⟨_, rfl, ?_⟩, ?_, ?_, ?_⟩ <;> decide

/-- Items 31, 32 and FEh, a swap pending and none, and good and bad fields of an entry and of a header. -/
theorem test_hyp_WriteSched :
    (onB0 .online fun B => { B with swapPending := true }).arrived.br .b0 =
      { BranchState.reset 0 with swapPending := true } ∧
    (onB0 .online id).arrived.br .b0 = BranchState.reset 0 ∧
    3 < (4 : Byte).toNat ∧ 32 ≤ (0xFE : Byte).toNat ∧ (0xFE : Byte) ≠ 0xFF ∧ (31 : Byte).toNat < 32 ∧
    (∃ w, walk [0x20, 2] = some w ∧
      (w.gather EntryWrite.empty EntryWrite.add).bind EntryWrite.entry = some .sync ∧
      w.gather HeaderWrite.empty HeaderWrite.add = none) ∧
    (∃ w, walk [0x28, 32] = some w ∧
      (w.gather EntryWrite.empty EntryWrite.add).bind EntryWrite.entry = none ∧
      (w.gather HeaderWrite.empty HeaderWrite.add).isSome = true) := by
  refine ⟨rfl, rfl, by decide, by decide, by decide, by decide, ⟨_, rfl, ?_, ?_⟩, ⟨_, rfl, ?_, ?_⟩⟩ <;> decide

theorem test_hyp_RequestsOnNode :
    239 < (240 : Byte).toNat ∧ (239 : Byte).toNat ≤ 239 ∧ (5 : Byte) ≠ 0 ∧
    (onB0 .online id).arrived.node? (6 : Byte).toNat = none ∧
    (onB0 .online id).arrived.node? (5 : Byte).toNat = some (record 5 .online) := by decide

theorem test_hyp_TablesAndQueuesAsLists :
    let l := [record 1 .online, record 239 .offline]
    (l.Pairwise fun q r => q.address < r.address) ∧ record 239 .offline ∈ l ∧ findNode 5 l = none ∧
    (∀ r ∈ l, (r.healthReset).address = r.address) ∧ (∀ x ∈ [{ command 0 9 with node := 6 }], x.node ≠ (command 0 9).node) := by
  decide

theorem test_hyp_SwapRequested :
    3 < (4 : Byte).toNat ∧ (0 : Byte) = BitVec.ofNat 8 Branch.b0.toNat ∧
    ((onB0 .online fun B => { B with swapPending := true }).arrived.br .b0).swapPending = true ∧
    ((onB0 .online (running .scheduled)).arrived.br .b0).swapPending = false ∧
    ((onB0 .online (running .scheduled)).arrived.br .b0).current = .scheduled ∧
    ((onB0 .online (running .onDemand)).arrived.br .b0).current ≠ .scheduled := by decide

theorem test_hyp_ModeRequested :
    3 < (4 : Byte).toNat ∧ (3 : Byte).toNat ≤ 3 ∧ 2 < (3 : Byte).toNat ∧ (2 : Byte) = Mode.onDemand.code ∧
    Mode.onDemand ≠ ((onB0 .online id).arrived.br .b0).current ∧ ((onB0 .online id).arrived.br .b0).slot = none ∧
    ((onB0 .online fun B => slotOf .sending (pollWork 0) (running .scheduled B)).arrived.br .b0).slot ≠ none := by
  decide

/-- A change between every two modes, with the wait mark set and clear and the supply good and out. -/
theorem test_hyp_ModeChangeTaken :
    ∀ was ∈ [Mode.off, .scheduled, .onDemand], ∀ asked ∈ [Mode.off, .scheduled, .onDemand], ∀ wait ∈ [true, false],
      ∀ state ∈ [SupplyState.disabled, .restorePending, .normal, .lowPending, .fault],
      let B := (onB0 .online fun B => { B with
        current := was, requested := asked, supplyWait := wait, sup := { B.sup with state := state } }).br .b0
      B.current = was ∧ B.requested = asked ∧ B.supplyWait = wait ∧ B.sup.state = state := by decide

/-- The highest flag of each kind of group, and the lowest bit beyond it. -/
theorem test_hyp_ClearFlagsAndCounters :
    4 < (5 : Byte).toNat ∧ (3 : Byte) = BitVec.ofNat 8 Branch.b3.toNat ∧ (0x80 : Byte) &&& 0x80 ≠ 0 ∧
    (0x7F : Byte) &&& 0x80 = 0 ∧ (0x20 : Byte) &&& 0xE0 ≠ 0 ∧ (0x1F : Byte) &&& 0xE0 = 0 ∧
    48 ≤ ({ busy State.reset with credits := 48 } : State).arrived.occupancy := by decide

theorem test_hyp_BadRequests :
    formAtFault [] = true ∧ formAtFault [0x01, 1, 0, 0] = true ∧ 8 < (9 : Byte).toNat ∧ [(0 : Byte)].length = 1 ∧
    walk [] ≠ none ∧ (Instr.swap 7 0).wf = true ∧ (Instr.swap 7 0).request = some (7, [0x06, 0]) := by decide

/-- A flag clear and enabled, clear and not enabled, and set. -/
theorem test_hyp_SignalRule :
    (0x00 : Byte) &&& 0x40 = 0 ∧ (0x7F : Byte) &&& 0x40 ≠ 0 ∧ (0x3F : Byte) &&& 0x40 = 0 ∧
    (0x40 : Byte) &&& 0x40 ≠ 0 := by decide

theorem test_hyp_CycleTick :
    ∀ phase ∈ [CyclePhase.stopped, .waiting, .running], ∀ state ∈ [SupplyState.normal, .lowPending, .fault],
      let B := (onB0 .online fun B => { B with
        cycle := { B.cycle with phase := phase, timer := some 9 }, sup := { B.sup with state := state } }).br .b0
      B.cycle.timer ≠ none ∧ B.cycle.phase = phase ∧ B.sup.state = state := by decide

/-- The late mark both ways; a slot index at the length, and one below it. -/
theorem test_hyp_CycleCompletes :
    (State.reset.br .b0).cycle.late = false ∧
    ((State.reset.onBr .b0 fun B => { B with cycle := { B.cycle with late := true } }).br .b0).cycle.late = true ∧
    (State.reset.br .b0).slot = none ∧ (State.reset.br .b0).active.length ≤ (State.reset.br .b0).cycle.index ∧
    ¬ ((State.reset.onBr .b0 fun B => { B with bankA := { B.bankA with length := 1 } }).br .b0).active.length ≤ 0 := by
  decide

/-- The three kinds of entry at the slot index, and each finding of the lookup. -/
theorem test_hyp_SlotStart :
    (∀ e ∈ [SlotEntry.sync, .gap 4095, .poll 5 2 3],
      ((onB0 .online fun B => { B with bankA := { B.bankA with entries := B.bankA.entries.set 31 e }
                                       cycle := { B.cycle with index := 31 } }).br .b0).entry = e) ∧
    State.reset.node? 5 = none ∧ (record 5 .online).branch ≠ .b1 ∧ (record 5 .online).branch = .b0 ∧
    (∀ h ∈ [Health.inactive, .online, .suspect, .offline], ((onB0 h id).node? 5).map NodeRecord.health = some h) ∧
    1 < ({ record 5 .offline with countdown := 2 } : NodeRecord).countdown ∧
    ({ record 5 .offline with countdown := 1 } : NodeRecord).countdown ≤ 1 := by decide

/-- An idle branch ready for a transaction, one that is not, and each finding of its lookup. -/
theorem test_hyp_TransactionStart :
    let B := (onB0 .online fun B => { running .onDemand B with queue := [command 0 9] }).br .b0
    B.current = .onDemand ∧ B.requested = .onDemand ∧ B.supplyWait = false ∧ B.sup.state = .normal ∧ B.slot = none ∧
    B.queue = command 0 9 :: [] ∧ (State.reset.br .b0).current ≠ .onDemand ∧ State.reset.node? (command 0 9).node = none ∧
    ((onB0 .inactive id).node? 5).map (fun r => (r.branch, r.health)) = some (.b0, .inactive) ∧
    ((onB0 .offline id).node? 5).map (fun r => (r.branch, r.health)) = some (.b0, .offline) := by decide

theorem test_hyp_WorkEnds :
    ((onB0 .online (slotOf .sending (pollWork 1))).br .b0).slot =
      some { rate := .r19200, phase := .sending, work := .poll (pollWork 1) } ∧
    (∀ w ∈ [SlotWork.sync, .gap 3], ((onB0 .online fun B => { running .scheduled B with
      slot := some { rate := .r19200, phase := .holding, work := w } }).br .b0).slot =
        some { rate := .r19200, phase := .holding, work := w }) ∧
    (running .scheduled (State.reset.br .b0)).current ≠ .onDemand ∧
    ({ running .scheduled (State.reset.br .b0) with requested := .off } : BranchState).requested ≠ .scheduled ∧
    (running .onDemand (State.reset.br .b0)).requested = (running .onDemand (State.reset.br .b0)).current := by decide

/-- Replies of each class, a slot that listens with the line in each state, and one that settles. -/
theorem test_hyp_AttemptClassed :
    (LineFrame.sealed 6 0x20 0 []).address.toNat ≠ (pollWork 0).node ∧
    (LineFrame.sealed 5 0x20 0 []).address.toNat = (pollWork 0).node ∧ (LineFrame.sealed 5 0x20 0 []).checkAgrees = true ∧
    (⟨5, 0x20, 0, [], 0⟩ : LineFrame).checkAgrees = false ∧ (pollWork 0).frame = .poll ∧
    commandWork.frame = .cmd true { tag := 7, node := 5, payload := [1, 2] } ∧
    (pollWork 0).classify (LineFrame.sealed 5 0x20 0 []) = none ∧
    (pollWork 0).classify (LineFrame.sealed 6 0x20 0 []) = some .wrongNode ∧
    (∀ ph ∈ [Phase.listening, .settling], ((onB0 .online (slotOf ph (pollWork 0))).br .b0).slot =
      some { rate := .r19200, phase := ph, work := .poll (pollWork 0) }) ∧
    (∀ l ∈ [LineUnit.hunting, .receiving [5]], ((onB0 .online fun B => { B with line := l }).br .b0).line = l) := by
  decide

theorem test_hyp_AttemptEnds : (pollWork 0).retriesLeft = 0 ∧ (pollWork 3).retriesLeft = 2 + 1 := by decide

/-- The line unit in each state; LEN 24 and 25; a reply complete at its last character, and partial before it. -/
theorem test_hyp_BranchCharacters :
    let f := LineFrame.sealed 5 0x20 0 (List.replicate 24 0)
    (∀ l ∈ [LineUnit.sending onLine, .quiet, .hunting, .receiving (5 :: [0x20, 0])],
      ((onB0 .online fun B => { B with line := l }).br .b0).line = l) ∧
    ((onB0 .online (slotOf .settling (pollWork 0))).br .b0).slot =
      some { rate := .r19200, phase := .settling, work := .poll (pollWork 0) } ∧
    ((onB0 .online (slotOf .settling (pollWork 0))).br .b0).line = .quiet ∧
    ([0x20, 0] : List Byte).length = 2 ∧ 24 < (25 : Byte).toNat ∧
    f.payload.length ≤ 24 ∧ f.values = 5 :: (f.values.drop 1).dropLast ++ [f.values.getLast?.getD 0] := by decide

theorem test_hyp_BranchCharacters_partial :
    partialFrame 24 (5 :: [0x20] ++ [0]) ∧ partialFrame 24 (5 :: [0x20, 0] ++ [24]) :=
  ⟨⟨by decide, trivial⟩,
    ⟨by decide, show (24 : Byte).toNat ≤ 24 ∧ _ < 6 + (24 : Byte).toNat from ⟨by decide, by decide⟩⟩⟩

/-- A record in each state, on the branch and off it; an OK and a failed outcome; a miss short of the threshold of 3 and
one that reaches it; and the outcomes of a command. -/
theorem test_hyp_WriteBack :
    State.reset.node? (pollWork 0).node = none ∧
    (∀ h ∈ [Health.inactive, .online, .suspect, .offline],
      (onB0 h id).node? (pollWork 0).node = some (record 5 h)) ∧
    (record 5 .online).branch = .b0 ∧ (record 5 .online).branch ≠ .b1 ∧
    ({ pollWork 0 with reply := some ⟨0x20, 0, []⟩ } : PollWork).reply ≠ none ∧ (pollWork 0).reply = none ∧
    ({ record 5 .suspect with misses := 1 } : NodeRecord).misses + 1 < (record 5 .suspect).threshold ∧
    (record 5 .suspect).threshold ≤ ({ record 5 .suspect with misses := 2 } : NodeRecord).misses + 1 ∧
    commandWork.frame = .cmd true { tag := 7, node := 5, payload := [1, 2] } ∧
    ({ commandWork with failure := some .noReply } : PollWork).failure = some .noReply ∧
    ({ commandWork with failure := some .badForm } : PollWork).failure ≠ some .noReply := by decide

/-- A report due and not due, with the occupancy at 39 and at 40. -/
theorem test_hyp_ReportDecision :
    (record 5 .online).reportMode = .onChange ∧ replyDiffers none 24 [] = true ∧ replyDiffers (some []) 24 [] = false ∧
    ({ State.reset with credits := 39 } : State).occupancy < 40 ∧
    40 ≤ ({ State.reset with credits := 40 } : State).occupancy := by decide

/-- The level is 3: a supply of 3 stands below its threshold and 4 above it; each state of the supervisor. -/
theorem test_hyp_SupplyChanges :
    ∀ state ∈ [SupplyState.disabled, .restorePending, .normal, .lowPending, .fault], ∀ supply ∈ ([3, 4] : List (Fin 9)),
      let B := (onB0 .online fun B => { B with supply := supply, sup := { B.sup with state := state } }).br .b0
      B.sup.enabled = true ∧ B.sup.level = 3 ∧ B.sup.state = state ∧ B.supply = supply ∧
        (B.supply ≤ 4 ∧ 3 ≤ B.supply) := by decide

theorem test_hyp_SupplyFault :
    let B := (onB0 .online fun B => { slotOf .listening commandWork (running .scheduled B) with
      sup := { B.sup with state := .lowPending, qualify := some 10 } }).br .b0
    B.sup.state = .lowPending ∧ B.sup.qualify ≠ none ∧ B.requested = B.current ∧
    ({ B with requested := .off } : BranchState).requested ≠ B.current := by decide

theorem test_hyp_SupplyRestored :
    ∀ mode ∈ [Mode.off, .scheduled, .onDemand], ∀ wait ∈ [true, false],
      let B := (onB0 .online fun B => { running mode B with
        supplyWait := wait, sup := { B.sup with state := .restorePending, restore := some 50 } }).br .b0
      B.sup.state = .restorePending ∧ B.sup.restore ≠ none ∧ B.supplyWait = wait ∧ B.current = mode := by decide

theorem test_hyp_BranchEventFrame :
    branchRow (.gapSlotEnd .b3) = some .b3 ∧ exec (.gapSlotEnd .b3) State.reset = .next State.reset := ⟨rfl, rfl⟩

/-- A step from the reset state, for the statements that every step keeps an invariant (the reset state meets each: the
statement InvariantsAtReset). -/
theorem test_hyp_kept : step State.reset = .next State.reset.tick := rfl

end Sys2Proof.Tests
end

section
/-! PROOFS. The check of a frame (R9): one step of the register is linear over exclusive-or and takes only 0 to 0, so
carrying the computation on through two check bytes is sixteen steps of the register's difference from them. -/
namespace Sys2Proof.Machine

/-! ### One step of the register -/

/-- What a step combines into the shifted register: the generator, when the top bit shifts out as 1 (R9, step 3). -/
def generatorOf (top : Bool) : Half := if top then 0x1021#16 else 0

theorem generatorOf_xor (a b : Bool) : generatorOf (a ^^ b) = generatorOf a ^^^ generatorOf b := by
  cases a <;> cases b <;> rfl

theorem checkStep_eq_xor_generatorOf (r : Half) : checkStep r = r <<< 1 ^^^ generatorOf r.msb := by
  cases h : r.msb <;> simp [checkStep, generatorOf, h]

/-- The step of R9 is linear: the shift and the choice of the generator by the top bit both are. -/
theorem checkStep_xor (a b : Half) : checkStep (a ^^^ b) = checkStep a ^^^ checkStep b := by
  have hshift : (a ^^^ b) <<< 1 = a <<< 1 ^^^ b <<< 1 := BitVec.shiftLeft_xor_distrib a b 1
  simp only [checkStep_eq_xor_generatorOf, hshift, BitVec.msb_xor, generatorOf_xor]
  ac_rfl

/-- While the top bit is 0 the register only shifts. -/
theorem checkStep_of_msb_false {r : Half} (h : r.msb = false) : checkStep r = r <<< 1 := by
  simp [checkStep, h]

/-- The register with its top bit set steps to one whose lowest bit is that of 1021h. -/
theorem checkStep_ne_zero_of_msb {r : Half} (h : r.msb = true) : checkStep r ≠ 0 := by
  intro hzero
  have hbit : (checkStep r).getLsbD 0 = true := by simp [checkStep, h]
  simp [hzero] at hbit

/-- Only a register at 0000h steps to 0000h. -/
theorem checkStep_eq_zero_iff (r : Half) : checkStep r = 0 ↔ r = 0 := by
  refine ⟨fun hzero => ?_, fun h => by rw [h]; rfl⟩
  cases hmsb : r.msb with
  | true => exact absurd hzero (checkStep_ne_zero_of_msb hmsb)
  | false =>
    rw [checkStep_of_msb_false hmsb] at hzero
    rw [BitVec.msb_eq_false_iff_two_mul_lt] at hmsb
    bv_omega

/-! ### Several steps of the register -/

theorem checkSteps_eq_iterate (n : Nat) (r : Half) : checkSteps n r = checkStep^[n] r := by
  induction n generalizing r with
  | zero => rfl
  | succ n ih => exact ih (checkStep r)

theorem checkSteps_add (m n : Nat) (r : Half) : checkSteps (m + n) r = checkSteps m (checkSteps n r) := by
  simp only [checkSteps_eq_iterate, Function.iterate_add_apply]

theorem checkSteps_xor (n : Nat) (a b : Half) : checkSteps n (a ^^^ b) = checkSteps n a ^^^ checkSteps n b := by
  induction n generalizing a b with
  | zero => rfl
  | succ n ih => simp only [checkSteps, checkStep_xor, ih]

theorem checkSteps_eq_zero_iff (n : Nat) (r : Half) : checkSteps n r = 0 ↔ r = 0 := by
  induction n generalizing r with
  | zero => rfl
  | succ n ih => exact (ih (checkStep r)).trans (checkStep_eq_zero_iff r)

/-- A register whose top `n` bits are 0 only shifts for `n` steps. -/
theorem checkSteps_eq_shiftLeft {n : Nat} {r : Half} (h : r.toNat * 2 ^ n < 2 ^ 16) : checkSteps n r = r <<< n := by
  induction n generalizing r with
  | zero => simp [checkSteps]
  | succ n ih =>
    have hdouble : r.toNat * 2 * 2 ^ n < 2 ^ 16 := by rwa [Nat.mul_assoc, ← Nat.pow_succ']
    have hlt : r.toNat * 2 < 2 ^ 16 := lt_of_le_of_lt (Nat.le_mul_of_pos_right _ (Nat.two_pow_pos n)) hdouble
    have hmsb : r.msb = false := BitVec.msb_eq_false_iff_two_mul_lt.2 (by omega)
    have hnat : (r <<< 1).toNat = r.toNat * 2 := by
      rw [BitVec.toNat_shiftLeft, Nat.shiftLeft_eq, pow_one, Nat.mod_eq_of_lt hlt]
    calc checkSteps (n + 1) r = checkSteps n (r <<< 1) := by rw [checkSteps, checkStep_of_msb_false hmsb]
      _ = r <<< 1 <<< n := ih (by rwa [hnat])
      _ = r <<< (n + 1) := by rw [← BitVec.shiftLeft_add, Nat.add_comm]

/-! ### Values carried into the register -/

/-- Eight steps bring a byte from the low half of the register to its high half. -/
theorem checkSteps_low_byte (v : Byte) : checkSteps 8 (v.setWidth 16) = v.setWidth 16 <<< 8 := by
  apply checkSteps_eq_shiftLeft
  have := v.isLt
  rw [BitVec.toNat_setWidth]
  omega

/-- Two bytes put together are the first, moved to the high half, exclusive-or the second. -/
theorem append_eq_shiftLeft_xor (h l : Byte) : (h ++ l : Half) = h.setWidth 16 <<< 8 ^^^ l.setWidth 16 := by
  apply BitVec.eq_of_getLsbD_eq
  intro i hi16
  rw [BitVec.getLsbD_append]
  by_cases h8 : i < 8
  · simp [h8, hi16]
  · simp [h8, hi16, BitVec.getLsbD_of_ge l i (by omega)]

/-- Two values taken one after the other are sixteen steps from the register exclusive-or both: the second waits in the
low half while the first is stepped. -/
theorem checkByte_checkByte (r : Half) (h l : Byte) :
    checkByte (checkByte r h) l = checkSteps 16 (r ^^^ (h ++ l : Half)) := by
  calc checkByte (checkByte r h) l
      = checkSteps 8 (checkSteps 8 (r ^^^ h.setWidth 16 <<< 8) ^^^ checkSteps 8 (l.setWidth 16)) := by
        rw [checkSteps_low_byte]; rfl
    _ = checkSteps 8 (checkSteps 8 (r ^^^ (h ++ l : Half))) := by
        rw [← checkSteps_xor, append_eq_shiftLeft_xor, BitVec.xor_assoc]
    _ = checkSteps 16 (r ^^^ (h ++ l : Half)) := (checkSteps_add 8 8 _).symm

theorem checkOf_append (vs ws : List Byte) : checkOf (vs ++ ws) = ws.foldl checkByte (checkOf vs) :=
  List.foldl_append

/-- Carried on through two check characters, the register ends at 0000h exactly when they are the check (R9). -/
theorem checkOf_append_pair_eq_zero_iff (vs : List Byte) (h l : Byte) :
    checkOf (vs ++ [h, l]) = 0 ↔ (h ++ l : Half) = checkOf vs := by
  calc checkOf (vs ++ [h, l]) = 0
      ↔ checkSteps 16 (checkOf vs ^^^ (h ++ l : Half)) = 0 := by
        rw [checkOf_append, List.foldl_cons, List.foldl_cons, List.foldl_nil, checkByte_checkByte]
    _ ↔ checkOf vs ^^^ (h ++ l : Half) = 0 := checkSteps_eq_zero_iff 16 _
    _ ↔ (h ++ l : Half) = checkOf vs := BitVec.xor_eq_zero_iff.trans eq_comm

/-- One value more is combined into the high half of the register, which is then stepped eight times (R9, steps 2 and
3). -/
theorem checkOf_concat (vs : List Byte) (v : Byte) :
    checkOf (vs ++ [v]) =
      (List.range 8).foldl (fun r _ => if r.msb then (r <<< 1) ^^^ 0x1021#16 else r <<< 1)
        (checkOf vs ^^^ (v.setWidth 16 <<< 8)) := by
  have hsteps : ∀ r : Half, checkSteps 8 r = (List.range 8).foldl (fun r _ => checkStep r) r := fun r => by
    rw [checkSteps_eq_iterate, List.foldl_const, List.length_range]
  rw [checkOf_append]
  exact hsteps _

/-! ### The check a frame carries -/

theorem LineFrame.checkAgrees_iff (f : LineFrame) : f.checkAgrees = true ↔ f.check = checkOf f.body :=
  beq_iff_eq

theorem sealed_body (a k t : Byte) (p : List Byte) :
    (LineFrame.sealed a k t p).body = [a, k, t, BitVec.ofNat 8 p.length] ++ p := rfl

theorem sealed_check (a k t : Byte) (p : List Byte) :
    (LineFrame.sealed a k t p).check = checkOf ([a, k, t, BitVec.ofNat 8 p.length] ++ p) := rfl

/-- The HX4 sends a frame's body and then the two bytes of its check (R8, R9). -/
theorem sealed_values (a k t : Byte) (p : List Byte) :
    (LineFrame.sealed a k t p).values = [a, k, t, BitVec.ofNat 8 p.length] ++ p ++
      [hi (LineFrame.sealed a k t p).check, lo (LineFrame.sealed a k t p).check] := rfl

/-- Settles O10: the register's linearity gives its end at zero over the check characters, and a sealed frame's last two
values are the two bytes of the check of the others. -/
theorem checkValue : Obligations.CheckValue := by
  refine ⟨rfl, checkOf_concat, checkOf_append_pair_eq_zero_iff, ?reference, LineFrame.checkAgrees_iff, ?sealed⟩
  case reference => simp [checkOf, checkByte, checkSteps, checkStep, BitVec.msb_eq_decide]
  case sealed =>
    intro a k t p
    refine ⟨_, _, sealed_values a k t p, ?_, sealed_checkAgrees a k t p⟩
    rw [hi_append_lo, sealed_check]

end Sys2Proof.Machine
end

section
/-! PROOFS. The statements about the node table: WRITE NODE (R28 to R31), the requests on one record (R37, R38, R100) and
the write-back (R23 to R27, R75, R76). Each operation is given once by an equation per case. -/
namespace Sys2Proof.Machine

/-! ### A record changed in place -/

/-- Only the record found is changed, so what a change makes of that record is all that matters of it. -/
theorem updateNode_eq_const {a : Nat} {l : List NodeRecord} {r : NodeRecord} (f : NodeRecord → NodeRecord)
    (h : findNode a l = some r) : updateNode a f l = updateNode a (fun _ => f r) l := by
  induction l with
  | nil => rfl
  | cons q rest ih =>
    simp only [findNode, updateNode] at h ⊢
    split_ifs at h ⊢ with hq
    · cases h; rfl
    · rw [ih h]

theorem State.onNode_eq_const {s : State} {a : Nat} {r : NodeRecord} (f : NodeRecord → NodeRecord)
    (h : s.node? a = some r) : s.onNode a f = s.onNode a fun _ => f r := by
  rw [State.onNode, updateNode_eq_const f h]; rfl

theorem State.address_of_node? {s : State} {a : Nat} {r : NodeRecord} (h : s.node? a = some r) : r.address = a :=
  (findNode_some h).2

/-! ### Requests answered -/

theorem State.requestFrame_refused {s : State} {tag : Byte} {f : State → State × Reply} {status : Status}
    (h : f (s.inHand tag) = (s.inHand tag, .refused status)) :
    s.requestFrame tag f = s.arrived.answered tag status [] := by
  rw [State.requestFrame_answered, h]
  exact s.inHand_answered tag status []

theorem State.requestFrame_done {s t : State} {tag : Byte} {f : State → State × Reply}
    (h : f (s.inHand tag) = (t, .done)) : s.requestFrame tag f = t.answered tag .ok [] := by
  rw [State.requestFrame_answered, h]; rfl

/-! ### Requests on one record -/

theorem exec_deleteNode (s : State) (tag a : Byte) :
    exec (.deleteNode tag a) s = .next (s.requestFrame tag (requestDelete a)) := rfl

theorem exec_resetHealth (s : State) (tag a : Byte) :
    exec (.resetHealth tag a) s = .next (s.requestFrame tag (requestResetHealth a)) := rfl

theorem exec_purge (s : State) (tag a : Byte) :
    exec (.purge tag a) s = .next (s.requestFrame tag (requestPurge a)) := rfl

theorem onRecord_badIndex {a : Byte} (h : a = 0 ∨ 239 < a.toNat) (act : State → State) (s : State) :
    onRecord a act s = (s, .refused .badIndex) :=
  if_pos (h.imp_left fun e => by simp [e])

theorem onRecord_noEntry {a : Byte} (h0 : a ≠ 0) (h239 : a.toNat ≤ 239) {s : State} (h : s.node? a.toNat = none)
    (act : State → State) : onRecord a act s = (s, .refused .noEntry) := by
  rw [onRecord, if_neg (by bv_omega), h]

theorem onRecord_done {a : Byte} (h0 : a ≠ 0) (h239 : a.toNat ≤ 239) {s : State} {r : NodeRecord}
    (h : s.node? a.toNat = some r) (act : State → State) : onRecord a act s = (act s, .done) := by
  rw [onRecord, if_neg (by bv_omega), h]

/-- What refuses every request on an address refuses the three rows that make one. -/
theorem exec_onRecord_refused {s : State} {tag a : Byte} {status : Status}
    (h : ∀ act, onRecord a act (s.inHand tag) = (s.inHand tag, .refused status)) :
    ∀ c ∈ [Instr.deleteNode tag a, .resetHealth tag a, .purge tag a],
      exec c s = .next (s.arrived.answered tag status []) := by
  simp only [List.forall_mem_cons, exec_deleteNode, exec_resetHealth, exec_purge]
  exact ⟨congrArg _ (State.requestFrame_refused (h _)), congrArg _ (State.requestFrame_refused (h _)),
    congrArg _ (State.requestFrame_refused (h _)), fun _ hc => absurd hc List.not_mem_nil⟩

/-- DQ0 to DQ3 are purged one after another (R38). -/
theorem State.purgeAll_eq_foldl (s : State) (a : Nat) :
    s.purgeAll a = [Branch.b0, .b1, .b2, .b3].foldl (fun t b => t.purgeQueue a b) s := rfl

/-! ### WRITE NODE: the effects on health -/

theorem NodeRecord.update_activated {r : NodeRecord} {w : NodeWrite} (hr : r.active = false)
    (hq : (r.configure w).active = true) : r.update w = { r.configure w with health := .online, misses := 0 } := by
  simp only [NodeRecord.update, hr, hq]

theorem NodeRecord.update_deactivated {r : NodeRecord} {w : NodeWrite} (hr : r.active = true)
    (hq : (r.configure w).active = false) :
    r.update w = { r.configure w with health := .inactive, misses := 0, countdown := 0 } := by
  simp only [NodeRecord.update, hr, hq]

theorem NodeRecord.update_stays_inactive {r : NodeRecord} {w : NodeWrite} (hr : r.active = false)
    (hq : (r.configure w).active = false) : r.update w = r.configure w := by
  simp only [NodeRecord.update, hr, hq]

theorem NodeRecord.update_no_threshold {r : NodeRecord} {w : NodeWrite} (hr : r.active = true)
    (hq : (r.configure w).active = true) (ht : w.threshold = none) : r.update w = r.configure w := by
  simp only [NodeRecord.update, hr, hq, ht]

theorem NodeRecord.update_threshold {r : NodeRecord} {w : NodeWrite} {t : Nat} (hr : r.active = true)
    (hq : (r.configure w).active = true) (ht : w.threshold = some t) :
    r.update w = (r.configure w).thresholdWritten t := by
  simp only [NodeRecord.update, hr, hq, ht]

theorem NodeRecord.thresholdWritten_online {r : NodeRecord} (h : r.health = .online) (t : Nat) :
    r.thresholdWritten t = r := by
  simp only [NodeRecord.thresholdWritten, h]

theorem NodeRecord.thresholdWritten_suspect_lt {r : NodeRecord} {t : Nat} (h : r.health = .suspect)
    (ht : r.misses < t) : r.thresholdWritten t = r := by
  simp only [NodeRecord.thresholdWritten, h, if_pos ht]

theorem NodeRecord.thresholdWritten_suspect_le {r : NodeRecord} {t : Nat} (h : r.health = .suspect)
    (ht : t ≤ r.misses) :
    r.thresholdWritten t = { r with health := .offline, misses := t, countdown := r.divisor } := by
  simp only [NodeRecord.thresholdWritten, h, if_neg (Nat.not_lt.2 ht)]

theorem NodeRecord.thresholdWritten_offline {r : NodeRecord} (h : r.health = .offline) (t : Nat) :
    r.thresholdWritten t = { r with misses := t } := by
  simp only [NodeRecord.thresholdWritten, h]

/-- Unless the write takes a SUSPECT record OFFLINE, nothing is signalled (R31). -/
theorem State.updateRecord_silent {r p : NodeRecord} {w : NodeWrite} (s : State) (hp : r.update w = p)
    (h : ¬ (r.health = .suspect ∧ p.health = .offline)) :
    s.updateRecord r w = s.onNode r.address fun _ => p := by
  subst hp; exact if_neg h

/-- A SUSPECT record taken OFFLINE is signalled in the group of the branch it then has (R31). -/
theorem State.updateRecord_lost {r p : NodeRecord} {w : NodeWrite} (s : State) (hp : r.update w = p)
    (hr : r.health = .suspect) (h : p.health = .offline) :
    s.updateRecord r w = (s.onNode r.address fun _ => p).signalNode p.branch .nodeLost r.address := by
  subst hp; exact if_pos ⟨hr, h⟩

/-! ### WRITE NODE: the judgement -/

theorem Table.node_refusesWrite_eq_false {w : Walk} (h : ∀ i ∈ w.items, ¬ (0x10 ≤ i.code ∧ i.code ≤ 0x17)) :
    Table.node.refusesWrite w = false := by
  simpa [Table.refusesWrite, Table.writable, Table.readOnlyCode] using h

theorem writeTable_node {fields : List Byte} {w : Walk} (hw : walk fields = some w)
    (hro : ∀ i ∈ w.items, ¬ (0x10 ≤ i.code ∧ i.code ≤ 0x17)) (key item : Byte) :
    writeTable .node key item fields = writeNode key item w := by
  funext s
  simp [writeTable, hw, Table.node_refusesWrite_eq_false hro]

/-- A WRITE NODE whose fields may be written is the judgement of its address, values and record. -/
theorem exec_writeNode {fields : List Byte} {w : Walk} (hw : walk fields = some w)
    (hro : ∀ i ∈ w.items, ¬ (0x10 ≤ i.code ∧ i.code ≤ 0x17)) (s : State) (tag key item : Byte) :
    exec (.writeNode tag key item fields) s = .next (s.requestFrame tag (writeNode key item w)) := by
  rw [← writeTable_node hw hro]; rfl

theorem writeNode_badIndex {key item : Byte} (h : key = 0 ∨ 239 < key.toNat ∨ item ≠ 0) (w : Walk) (s : State) :
    writeNode key item w s = (s, .refused .badIndex) :=
  if_pos (h.imp_left fun e => by simp [e])

section
variable {key : Byte} {w : Walk} {d : NodeWrite} {s : State}

/-- An address of the table, and item 0, pass the first check of R159. -/
theorem not_badIndex (h0 : key ≠ 0) (h239 : key.toNat ≤ 239) :
    ¬ (key.toNat < 1 ∨ 239 < key.toNat ∨ (0 : Byte) ≠ 0) := by
  bv_omega

theorem writeNode_badValue (h0 : key ≠ 0) (h239 : key.toNat ≤ 239)
    (hd : w.gather NodeWrite.empty NodeWrite.add = none) : writeNode key 0 w s = (s, .refused .badValue) := by
  rw [writeNode, if_neg (not_badIndex h0 h239), hd]

theorem writeNode_tableFull (h0 : key ≠ 0) (h239 : key.toNat ≤ 239)
    (hd : w.gather NodeWrite.empty NodeWrite.add = some d) (hnone : s.node? key.toNat = none)
    (hfull : 96 ≤ s.nodes.length) : writeNode key 0 w s = (s, .refused .tableFull) := by
  simp only [writeNode, if_neg (not_badIndex h0 h239), hd, hnone]
  exact if_pos hfull

theorem writeNode_created (h0 : key ≠ 0) (h239 : key.toNat ≤ 239)
    (hd : w.gather NodeWrite.empty NodeWrite.add = some d) (hnone : s.node? key.toNat = none)
    (hroom : s.nodes.length < 96) :
    writeNode key 0 w s = ({ s with nodes := insertNode (d.create key.toNat) s.nodes }, .done) := by
  simp only [writeNode, if_neg (not_badIndex h0 h239), hd, hnone]
  exact if_neg (Nat.not_le.2 hroom)

theorem writeNode_updated {r : NodeRecord} (h0 : key ≠ 0) (h239 : key.toNat ≤ 239)
    (hd : w.gather NodeWrite.empty NodeWrite.add = some d) (hr : s.node? key.toNat = some r) :
    writeNode key 0 w s = (s.updateRecord r d, .done) := by
  simp only [writeNode, if_neg (not_badIndex h0 h239), hd, hr]

end

/-! ### The write-back: the outcome applied -/

theorem NodeRecord.afterFailure_offline {r : NodeRecord} (h : r.health = .offline) :
    r.afterFailure = { r with totalMisses := bump r.totalMisses } := by
  simp only [NodeRecord.afterFailure, h]

theorem NodeRecord.afterFailure_below {r : NodeRecord} (hi : r.health ≠ .inactive) (ho : r.health ≠ .offline)
    (ht : r.misses + 1 < r.threshold) :
    r.afterFailure =
      { r with totalMisses := bump r.totalMisses, misses := r.misses + 1, health := .suspect } := by
  cases hr : r.health with
  | inactive => exact absurd hr hi
  | offline => exact absurd hr ho
  | online | suspect => simp only [NodeRecord.afterFailure, hr, if_pos ht]

theorem NodeRecord.afterFailure_at {r : NodeRecord} (hi : r.health ≠ .inactive) (ho : r.health ≠ .offline)
    (ht : r.threshold ≤ r.misses + 1) :
    r.afterFailure =
      { r with
        totalMisses := bump r.totalMisses, misses := r.misses + 1, health := .offline, countdown := r.divisor } := by
  cases hr : r.health with
  | inactive => exact absurd hr hi
  | offline => exact absurd hr ho
  | online | suspect => simp only [NodeRecord.afterFailure, hr, if_neg (Nat.not_lt.2 ht)]

section
variable {s : State} {b : Branch} {r p : NodeRecord} {a : Nat}

/-- An OK outcome sets the record, and is signalled where the record was OFFLINE (R23). -/
theorem State.okOutcome_eq (h : s.node? a = some r) :
    s.okOutcome b r =
      if r.health = .offline then (s.onNode a fun _ => r.afterOk).signalNode b .nodeBack a
      else s.onNode a fun _ => r.afterOk := by
  obtain rfl := State.address_of_node? h
  rw [← State.onNode_eq_const NodeRecord.afterOk h]; rfl

/-- Unless a failed outcome takes the record OFFLINE, nothing is signalled (R24). -/
theorem State.failedOutcome_silent (h : s.node? a = some r) (hp : r.afterFailure = p)
    (hs : ¬ (r.health ≠ .offline ∧ p.health = .offline)) : s.failedOutcome b r = s.onNode a fun _ => p := by
  obtain rfl := State.address_of_node? h
  subst hp
  rw [← State.onNode_eq_const NodeRecord.afterFailure h]; exact if_neg hs

/-- A record that a failed outcome takes OFFLINE is signalled in the group of the slot's branch (R24). -/
theorem State.failedOutcome_lost (h : s.node? a = some r) (hp : r.afterFailure = p)
    (hr : r.health ≠ .offline) (ho : p.health = .offline) :
    s.failedOutcome b r = (s.onNode a fun _ => p).signalNode b .nodeLost a := by
  obtain rfl := State.address_of_node? h
  subst hp
  rw [← State.onNode_eq_const NodeRecord.afterFailure h]; exact if_pos ⟨hr, ho⟩

end

section
variable {s : State} {b : Branch} {w : PollWork} {r : NodeRecord} {reply : SlotReply}

theorem State.applyOutcome_absent (h : s.node? w.node = none) : s.applyOutcome b w = s.orphan b := by
  rw [State.applyOutcome, h]

theorem State.applyOutcome_elsewhere (h : s.node? w.node = some r) (hb : r.branch ≠ b) :
    s.applyOutcome b w = s.orphan b := by
  simp only [State.applyOutcome, h, if_pos hb]

theorem State.applyOutcome_inactive_ok (h : s.node? w.node = some r) (hb : r.branch = b) (hi : r.health = .inactive)
    (hw : w.reply ≠ none) :
    s.applyOutcome b w = s.onNode w.node fun _ => { r with okReplies := bump r.okReplies } := by
  obtain ⟨reply, hreply⟩ := Option.ne_none_iff_exists'.1 hw
  rw [← State.onNode_eq_const (fun q => { q with okReplies := bump q.okReplies }) h, ← State.address_of_node? h]
  simp only [State.applyOutcome, h, if_neg (not_not.2 hb), hreply, if_pos hi]

theorem State.applyOutcome_inactive_failed (h : s.node? w.node = some r) (hb : r.branch = b)
    (hi : r.health = .inactive) (hw : w.reply = none) :
    s.applyOutcome b w = s.onNode w.node fun _ => { r with totalMisses := bump r.totalMisses } := by
  rw [← State.onNode_eq_const (fun q => { q with totalMisses := bump q.totalMisses }) h, ← State.address_of_node? h]
  simp only [State.applyOutcome, h, if_neg (not_not.2 hb), hw, if_pos hi]

theorem State.applyOutcome_poll_ok (h : s.node? w.node = some r) (hb : r.branch = b) (hi : r.health ≠ .inactive)
    (hw : w.reply = some reply) (hf : w.frame = .poll) :
    s.applyOutcome b w = (s.okOutcome b r).reportDecision b r.afterOk reply.payload := by
  simp only [State.applyOutcome, h, if_neg (not_not.2 hb), hw, if_neg hi, hf]

theorem State.applyOutcome_command_ok {toggle : Bool} {c : InFlight} (h : s.node? w.node = some r) (hb : r.branch = b)
    (hi : r.health ≠ .inactive) (hw : w.reply = some reply) (hf : w.frame = .cmd toggle c) :
    s.applyOutcome b w = s.okOutcome b r := by
  simp only [State.applyOutcome, h, if_neg (not_not.2 hb), hw, if_neg hi, hf]

theorem State.applyOutcome_failed (h : s.node? w.node = some r) (hb : r.branch = b) (hi : r.health ≠ .inactive)
    (hw : w.reply = none) : s.applyOutcome b w = s.failedOutcome b r := by
  simp only [State.applyOutcome, h, if_neg (not_not.2 hb), hw, if_neg hi]

/-! ### The write-back: the RESULT and the counter -/

theorem State.writeBack_poll_failed (hf : w.frame = .poll) (hw : w.reply = none) :
    s.writeBack b w = s.applyOutcome b w := by
  simp only [State.writeBack, State.issueResult, State.countOutcome, hf, hw]

theorem State.writeBack_poll_ok (hf : w.frame = .poll) (hw : w.reply ≠ none) :
    s.writeBack b w = (s.applyOutcome b w).count b fun c => { c with pollOk := bump c.pollOk } := by
  obtain ⟨reply, hreply⟩ := Option.ne_none_iff_exists'.1 hw
  simp only [State.writeBack, State.issueResult, State.countOutcome, hf, hreply]

theorem State.writeBack_command_failed {toggle : Bool} {c : InFlight} (hf : w.frame = .cmd toggle c)
    (hw : w.reply = none) :
    s.writeBack b w = (s.applyOutcome b w).convert c.tag c.node
      (if w.failure = some .noReply then .noReply else .lineError) [] := by
  simp only [State.writeBack, State.issueResult, State.countOutcome, PollWork.result, hf, hw]

theorem State.writeBack_command_ok {toggle : Bool} {c : InFlight} (hf : w.frame = .cmd toggle c)
    (hw : w.reply = some reply) :
    s.writeBack b w = ((s.applyOutcome b w).convert c.tag c.node
      (if reply.kind = 0x21 then .doneAck else .doneNak) reply.payload).count b
        fun c => { c with commandOk := bump c.commandOk } := by
  simp only [State.writeBack, State.issueResult, State.countOutcome, PollWork.result, hf, hw]
  rfl

/-- The code of the RESULT of a command that was answered (R76). -/
theorem ResultStatus.code_ite_done (P : Prop) [Decidable P] :
    ResultStatus.code (if P then .doneAck else .doneNak) = if P then 0x00 else 0x01 := apply_ite ..

end

end Sys2Proof.Machine

/-! ### The statements -/

namespace Sys2Proof.NodeTable
open Sys2Proof.Machine

/-- Settles O28: the judgement in the order of R159, and then the record created or, case by case of active and
threshold, updated; only a SUSPECT record found OFFLINE after the write is signalled. -/
theorem writeNode : Obligations.WriteNode := by
  intro s tag key item fields w hw hro u v
  rw [exec_writeNode hw hro]
  refine ⟨fun hbad => congrArg _ (State.requestFrame_refused (writeNode_badIndex hbad w v)), ?inRange⟩
  rintro h0 h239 rfl
  refine ⟨fun hd => congrArg _ (State.requestFrame_refused (writeNode_badValue h0 h239 hd)),
    fun d hd => ⟨?absent, ?held⟩⟩
  case absent =>
    intro hnone
    exact ⟨fun hfull => congrArg _ (State.requestFrame_refused (writeNode_tableFull (s := v) h0 h239 hd hnone hfull)),
      fun hroom => congrArg _ (State.requestFrame_done (writeNode_created (s := v) h0 h239 hd hnone hroom))⟩
  case held =>
    intro r hr q held answered
    have hkey : r.address = key.toNat := State.address_of_node? hr
    have done {t : State} (ht : v.updateRecord r d = t) : answered t := by
      subst ht
      exact congrArg _ (State.requestFrame_done (writeNode_updated (s := v) h0 h239 hd hr))
    have silent {p : NodeRecord} (hp : r.update d = p) (h : ¬ (r.health = .suspect ∧ p.health = .offline)) :
        answered (held p) := done (by rw [State.updateRecord_silent v hp h, hkey]; rfl)
    have kept : ¬ (r.health = .suspect ∧ r.health = .offline) := fun ⟨hs, ho⟩ => nomatch hs.symm.trans ho
    refine ⟨fun ha hq => silent (NodeRecord.update_activated ha hq) (fun h => nomatch h.2),
      fun ha hq => silent (NodeRecord.update_deactivated ha hq) (fun h => nomatch h.2),
      fun ha hq => silent (NodeRecord.update_stays_inactive ha hq) kept,
      fun ha hq => ⟨fun ht => silent (NodeRecord.update_no_threshold ha hq ht) kept, fun t ht => ?_⟩⟩
    have written {p : NodeRecord} (hp : q.thresholdWritten t = p) : r.update d = p :=
      (NodeRecord.update_threshold ha hq ht).trans hp
    refine ⟨fun ho => silent (written (NodeRecord.thresholdWritten_online (r := q) ho t)) kept,
      fun hs hlt => silent (written (NodeRecord.thresholdWritten_suspect_lt hs hlt)) kept, fun hs hle => done ?lost,
      fun ho => silent (written (NodeRecord.thresholdWritten_offline (r := q) ho t)) kept⟩
    case lost =>
      rw [State.updateRecord_lost v (written (NodeRecord.thresholdWritten_suspect_le hs hle)) hs rfl, hkey]
      rfl

/-- Settles O30: the address and the record decide what is refused, and what is carried out purges queue by queue. -/
theorem requestsOnNode : Obligations.RequestsOnNode := by
  intro s tag a u v purged
  have hpurged : purged = fun t b => t.purgeQueue a.toNat b := by
    funext t b
    exact (t.purgeQueue_eq a.toNat b).symm
  refine ⟨fun hbad => exec_onRecord_refused fun act => onRecord_badIndex hbad act v, fun h0 h239 =>
    ⟨fun hnone => exec_onRecord_refused (onRecord_noEntry (s := v) h0 h239 hnone), fun r hr => ?_⟩⟩
  have carried (act : State → State) : s.requestFrame tag (onRecord a act) = (act v).answered tag .ok [] :=
    State.requestFrame_done (onRecord_done (s := v) h0 h239 hr act)
  rw [hpurged, exec_deleteNode, exec_resetHealth, exec_purge, ← State.purgeAll_eq_foldl, ← State.purgeAll_eq_foldl]
  exact ⟨congrArg _ (carried _), congrArg _ (carried _), congrArg _ (carried _)⟩

/-- Settles O48: what is found at the address, the reply and the frame decide the outcome applied; then the frame and
the reply decide the RESULT and the counter. -/
theorem writeBack : Obligations.WriteBack := by
  refine ⟨?applied, ?reported⟩
  case applied =>
    intro s b w orphan
    refine ⟨State.applyOutcome_absent, ?found⟩
    intro r h held ok missed
    refine ⟨State.applyOutcome_elsewhere h, fun hb hi => ⟨State.applyOutcome_inactive_ok h hb hi,
      State.applyOutcome_inactive_failed h hb hi⟩, fun hb hi => ⟨?answered, ?failed⟩⟩
    case answered =>
      intro reply hw t
      have ht : s.okOutcome b r = t := State.okOutcome_eq h
      refine ⟨fun hf => ?_, fun toggle c hf => ?_⟩
      · rw [State.applyOutcome_poll_ok h hb hi hw hf, ht]; rfl
      · rw [State.applyOutcome_command_ok h hb hi hw hf, ht]
    case failed =>
      intro hw
      rw [State.applyOutcome_failed h hb hi hw]
      exact ⟨fun ho => State.failedOutcome_silent h (NodeRecord.afterFailure_offline ho) (fun hs => hs.1 ho),
        fun ho ht => State.failedOutcome_silent h (NodeRecord.afterFailure_below hi ho ht) (fun hs => nomatch hs.2),
        fun ho ht => State.failedOutcome_lost h (NodeRecord.afterFailure_at hi ho ht) ho rfl⟩
  case reported =>
    intro s b w t result
    refine ⟨fun hf => ⟨State.writeBack_poll_failed hf, State.writeBack_poll_ok hf⟩,
      fun toggle c hf => ⟨?noReply, ?lineError, ?answered⟩⟩
    case noReply =>
      intro hw hn
      rw [State.writeBack_command_failed hf hw, if_pos hn]; rfl
    case lineError =>
      intro hw hn
      rw [State.writeBack_command_failed hf hw, if_neg hn]; rfl
    case answered =>
      intro reply hw
      rw [State.writeBack_command_ok hf hw]
      simp only [result, ← ResultStatus.code_ite_done]
      rfl

end Sys2Proof.NodeTable
end

section
/-! PROOFS. The statements about swaps and cycles: SWAP and its taking (R47, R48), the start of a cycle (R55 to R57), its
slots in index order (R65, R66, R84) and its completion (R54). -/
namespace Sys2Proof.Machine

/-! ### Swaps -/

theorem BankName.other_eq_ite (n : BankName) : n.other = if n = .a then .b else .a := by cases n <;> rfl

/-- A swap taken flips the marker, clears swap-pending and signals SWAP_DONE, and does nothing else (R48). -/
theorem State.takeSwap_eq (s : State) (b : Branch) :
    s.takeSwap b = { s with
      branches := s.branches.set b
        { s.br b with activeBank := if (s.br b).activeBank = .a then .b else .a, swapPending := false }
      eu := { s.eu with groups := s.eu.groups.set b ((s.eu.groups.get b).raise 0x10) } } := by
  rw [← BankName.other_eq_ite]; rfl

theorem exec_swap (s : State) (tag key : Byte) :
    exec (.swap tag key) s = .next (s.requestFrame tag (requestSwap key)) := rfl

theorem requestSwap_badIndex {key : Byte} (h : 3 < key.toNat) (s : State) :
    requestSwap key s = (s, .refused .badIndex) := by
  rw [requestSwap, Branch.ofNat?_none h]

section
variable {s : State} {b : Branch}

theorem requestSwap_busy (h : (s.br b).swapPending = true) :
    requestSwap (BitVec.ofNat 8 b.toNat) s = (s, .refused .busy) := by
  simp only [requestSwap, Branch.ofNat?_toNat, if_pos h]

/-- In SCHEDULED the swap waits for the next cycle start (R47). -/
theorem requestSwap_scheduled (h : (s.br b).swapPending = false) (hc : (s.br b).current = .scheduled) :
    requestSwap (BitVec.ofNat 8 b.toNat) s = (s.onBr b fun B => { B with swapPending := true }, .done) := by
  simp only [requestSwap, Branch.ofNat?_toNat, h, hc, Bool.false_eq_true, if_false]

/-- In OFF and ON_DEMAND the swap is taken at once (R47). -/
theorem requestSwap_atOnce (h : (s.br b).swapPending = false) (hc : (s.br b).current ≠ .scheduled) :
    requestSwap (BitVec.ofNat 8 b.toNat) s = (s.takeSwap b, .done) := by
  simp only [requestSwap, Branch.ofNat?_toNat, h, Bool.false_eq_true, if_false]
  cases hm : (s.br b).current with
  | scheduled => exact absurd hm hc
  | off | onDemand => rfl

end

/-! ### The start of a slot, seen from its branch -/

/-- A branch after a skip: the next slot index is due and the skip is counted; nothing else changes (R66, R89). -/
def BranchState.afterSkip (B : BranchState) : BranchState :=
  { B with
    cycle := { B.cycle with index := B.cycle.index + 1 }
    counters := { B.counters with slotsSkipped := bump B.counters.slotsSkipped } }

theorem State.skipSlot_br (s : State) (b : Branch) : (s.skipSlot b).br b = (s.br b).afterSkip := by
  simp [State.skipSlot, BranchState.afterSkip]

/-- What a slot's start does to its branch: a slot is in progress and the cycle state is kept, or the slot is skipped
(R65, R66). -/
def BranchState.Started (A B : BranchState) : Prop :=
  (B.slot.isSome = true ∧ B.cycle = A.cycle) ∨ B = A.afterSkip

theorem State.skipSlot_started (s : State) (b : Branch) : (s.br b).Started ((s.skipSlot b).br b) :=
  .inr (s.skipSlot_br b)

theorem State.chooseFrame_started (s : State) (b : Branch) (r : NodeRecord) (window retries : Nat) :
    (s.br b).Started ((s.chooseFrame b r window retries).br b) := by
  refine .inl ?_
  simp only [State.chooseFrame]
  split
  · simp [State.launch, State.beginAttempt]
  · simp [State.beginAttempt]

theorem State.lookup_started (s : State) (b : Branch) (node window retries : Nat) :
    (s.br b).Started ((s.lookup b node window retries).br b) := by
  unfold State.lookup
  split
  case h_1 => exact s.skipSlot_started b
  case h_2 r _ =>
    split
    case isTrue => exact s.skipSlot_started b
    case isFalse =>
      split
      case h_1 => exact s.skipSlot_started b
      case h_2 => exact s.chooseFrame_started b r window retries
      case h_3 => exact s.chooseFrame_started b r window retries
      case h_4 =>
        split
        case isTrue => exact (s.onNode node _).skipSlot_started b
        case isFalse => exact (s.onNode node _).chooseFrame_started b r window retries

theorem State.startSlot_started (s : State) (b : Branch) : (s.br b).Started ((s.startSlot b).br b) := by
  simp only [State.startSlot]
  split
  · exact s.lookup_started b _ _ _
  · exact .inl (by simp)
  · exact .inl (by simp)

/-! ### The slots of a cycle -/

/-- One slot of the cycle is started, and the next where it took no line time (R65, R66, R84). -/
theorem State.runCycle_step (s : State) (b : Branch) :
    s.runCycle b =
      if (s.br b).active.length ≤ (s.br b).cycle.index then s
      else if ((s.startSlot b).br b).slot.isSome then s.startSlot b else (s.startSlot b).runCycle b := by
  split
  case isTrue hend => rw [State.runCycle, Nat.sub_eq_zero_of_le hend, State.runSlots]
  case isFalse hmore =>
    obtain ⟨n, hn⟩ := Nat.exists_eq_add_one.2 (Nat.sub_pos_of_lt (Nat.lt_of_not_le hmore))
    rw [State.runCycle, hn, State.runSlots]
    rcases s.startSlot_started b with ⟨hslot, -⟩ | hskip
    · simp only [hslot, if_true]
    · have hleft : ((s.startSlot b).br b).active.length - ((s.startSlot b).br b).cycle.index = n := by
        rw [hskip]
        show (s.br b).active.length - ((s.br b).cycle.index + 1) = n
        omega
      rw [State.runCycle, hleft]

/-- The late mark is set by a tick alone, and no slot touches it (R53). -/
theorem State.startSlot_late (s : State) (b : Branch) :
    ((s.startSlot b).br b).cycle.late = (s.br b).cycle.late := by
  rcases s.startSlot_started b with ⟨-, hcycle⟩ | hskip
  · rw [hcycle]
  · rw [hskip]; rfl

theorem State.runSlots_late (b : Branch) (n : Nat) (s : State) :
    ((State.runSlots b n s).br b).cycle.late = (s.br b).cycle.late := by
  induction n generalizing s with
  | zero => rfl
  | succ n ih =>
    simp only [State.runSlots]
    split
    · exact s.startSlot_late b
    · rw [ih, s.startSlot_late b]

/-! ### The start of a cycle -/

theorem Per.set_set {α : Type} (p : Per α) (b : Branch) (x y : α) : (p.set b x).set b y = p.set b y := by
  cases b <;> rfl

/-- Two changes of one branch are one. -/
theorem State.onBr_onBr (s : State) (b : Branch) (f g : BranchState → BranchState) :
    (s.onBr b f).onBr b g = s.onBr b fun B => g (f B) := by
  rw [State.onBr, State.onBr_br_same]
  simp only [State.onBr, Per.set_set]

/-- A signal leaves the branches, and so comes before or after a change of one alike. -/
theorem State.onBr_signal (s : State) (b c : Branch) (f : BranchFlag) (g : BranchState → BranchState) :
    (s.signal c f).onBr b g = (s.onBr b g).signal c f := rfl

/-- Expired entries give their RESULTs in order, and COMMAND_EXPIRED where there are any (R57). -/
theorem State.expireAll_eq (s : State) (b : Branch) (l : List Command) :
    s.expireAll b l = { s with
      pool := s.pool ++ l.map (removedEntry .expired)
      credits := s.credits - l.length
      eu := if l = [] then s.eu else s.eu.onGroup (.branch b) (·.raise BranchFlag.commandExpired.mask) } := by
  cases l with
  | nil => simp [State.expireAll]
  | cons c rest => rw [State.expireAll, State.convertAll_eq]; rfl

/-- Expiry leaves the branches, and so comes before or after a change of one alike. -/
theorem State.expireAll_onBr (s : State) (b : Branch) (f : BranchState → BranchState) (l : List Command) :
    (s.onBr b f).expireAll b l = (s.expireAll b l).onBr b f := by
  simp only [State.expireAll_eq]; rfl

theorem State.expireAll_br (s : State) (b : Branch) (l : List Command) : (s.expireAll b l).br b = s.br b := by
  rw [State.expireAll_eq]; rfl

/-- The part at a cycle start with no swap to take: the cycle numbered and counted, DQb aged, and the engine RUNNING at
slot index 0 (R55). -/
def State.enterCycle (s : State) (b : Branch) : State :=
  let aged := (s.br b).queue.map Command.aged
  (s.expireAll b (aged.filter Command.spent)).onBr b fun B =>
    { B with
      queue := aged.filter fun c => !c.spent
      cycle := { B.cycle with number := B.cycle.number + 1, index := 0, phase := .running }
      counters := { B.counters with cycles := bump B.counters.cycles } }

/-- A cycle start takes a pending swap, enters the cycle and starts its slots (R55). -/
theorem State.openCycle_eq (s : State) (b : Branch) :
    s.openCycle b = ((s.takePendingSwap b).enterCycle b).runCycle b := by
  simp only [State.openCycle, State.enterCycle, State.ageQueue, State.count, State.onCycle, State.onBr_br_same,
    State.expireAll_onBr, State.onBr_onBr]

theorem State.takePendingSwap_cycle (s : State) (b : Branch) :
    ((s.takePendingSwap b).br b).cycle = (s.br b).cycle := by
  unfold State.takePendingSwap
  split
  · simp [State.takeSwap]
  · rfl

theorem State.enterCycle_late (s : State) (b : Branch) :
    ((s.enterCycle b).br b).cycle.late = (s.br b).cycle.late := by
  simp [State.enterCycle, State.expireAll_br]

/-- A cycle start leaves the late mark as it was (R54, R55). -/
theorem State.openCycle_late (s : State) (b : Branch) :
    ((s.openCycle b).br b).cycle.late = (s.br b).cycle.late := by
  rw [State.openCycle_eq, State.runCycle, State.runSlots_late, State.enterCycle_late, State.takePendingSwap_cycle]

/-! ### The completion of a cycle -/

theorem State.completeCycle_onTime {s : State} {b : Branch} (h : (s.br b).cycle.late = false) :
    s.completeCycle b = s.wait b := by
  simp only [State.completeCycle, h, Bool.false_eq_true, if_false]

/-- A cycle that starts with the late mark clear waits where no slot of it takes line time (R54, R55). -/
theorem State.cycleStart_onTime {s : State} {b : Branch} (h : (s.br b).cycle.late = false) :
    s.cycleStart b = if ((s.openCycle b).br b).slot.isSome then s.openCycle b else (s.openCycle b).wait b := by
  rw [State.cycleStart, State.completeCycle_onTime ((s.openCycle_late b).trans h)]

/-- A late cycle completes with the mark clear, CYCLE_OVERRUN signalled and counted once, and a cycle start (R54). -/
theorem State.completeCycle_late {s : State} {b : Branch} (h : (s.br b).cycle.late = true) :
    s.completeCycle b = (State.signal (s.onBr b fun B => { B with
        cycle := { B.cycle with late := false }
        counters := { B.counters with overruns := bump B.counters.overruns } }) b .cycleOverrun).cycleStart b := by
  rw [State.cycleStart_onTime (by simp)]
  simp only [State.completeCycle, h, if_true, State.onCycle, State.count, State.onBr_signal, State.onBr_onBr]

end Sys2Proof.Machine

/-! ### The statements -/

namespace Sys2Proof.Cycles
open Sys2Proof.Machine

/-- Settles O32: the branch named, its swap-pending and its current mode decide the answer, in the order of R47. -/
theorem swapRequested : Obligations.SwapRequested := by
  refine ⟨State.takeSwap_eq, ?_⟩
  intro s tag key u v
  rw [exec_swap]
  refine ⟨fun hkey => congrArg _ (State.requestFrame_refused (requestSwap_badIndex hkey v)), ?_⟩
  rintro b rfl B
  refine ⟨fun hp => congrArg _ (State.requestFrame_refused (requestSwap_busy (s := v) hp)),
    fun hp hc => congrArg _ (State.requestFrame_done (requestSwap_scheduled (s := v) hp hc)), fun hp hc => ?atOnce⟩
  case atOnce =>
    rw [State.requestFrame_done (requestSwap_atOnce (s := v) hp hc), State.takeSwap_eq]
    rfl

/-- Settles O39: what a cycle start does before its first slot is one change of the part, and the slots follow. -/
theorem cycleStart : Obligations.CycleStart := by
  intro s b v B aged expired w t
  have hentered : v.enterCycle b = w := by
    rw [State.enterCycle, State.expireAll_eq]; rfl
  have hopen : s.openCycle b = t := (s.openCycle_eq b).trans (congrArg (State.runCycle · b) hentered)
  rw [State.cycleStart, hopen]

/-- Settles O40: the cycle that a late completion starts has its late mark clear, and no start of a slot sets it. -/
theorem cycleCompletes : Obligations.CycleCompletes := by
  refine ⟨?_, fun s b _ => s.runCycle_step b⟩
  intro s b B
  exact ⟨State.completeCycle_onTime, State.completeCycle_late⟩

end Sys2Proof.Cycles
end

section
/-! PROOFS. The report decision: when a reply differs (R78), when a report is due (R77, R79), and what its admission, its
refusal and a reply with no report due do (R80, R124, R127). -/
namespace Sys2Proof.Machine

/-! ### The comparison with the last value -/

/-- Two values agree on their first `k` bytes exactly where no place below `k` tells them apart. -/
theorem take_ne_take_iff {α : Type} {k : Nat} {v w : List α} :
    v.take k ≠ w.take k ↔ ∃ i, i < k ∧ v[i]? ≠ w[i]? := by
  rw [Ne, List.ext_getElem?_iff, not_forall]
  refine exists_congr fun i => ?_
  by_cases hi : i < k
  · simp [hi]
  · simp [hi]

theorem replyDiffers_none (k : Nat) (reply : List Byte) : replyDiffers none k reply = true := rfl

/-- A last value held differs in its length, or at a place below the compare length that the payload has (R78). -/
theorem replyDiffers_some_iff {v reply : List Byte} {k : Nat} :
    replyDiffers (some v) k reply = true ↔
      reply.length ≠ v.length ∨ ∃ i, i < k ∧ i < reply.length ∧ v[i]? ≠ reply[i]? := by
  calc replyDiffers (some v) k reply = true
      ↔ v.length ≠ reply.length ∨ v.take (min k reply.length) ≠ reply.take (min k reply.length) := by
        simp only [replyDiffers, Bool.or_eq_true, bne_iff_ne]
    _ ↔ reply.length ≠ v.length ∨ ∃ i, i < k ∧ i < reply.length ∧ v[i]? ≠ reply[i]? := by
        simp only [take_ne_take_iff, Nat.lt_min, and_assoc, ne_comm (a := v.length)]

/-! ### When a report is due -/

theorem NodeRecord.reportDue_iff {r : NodeRecord} {reply : List Byte} :
    r.reportDue reply = true ↔
      r.reportMode = .every ∨
      (r.reportMode = .onChange ∧ replyDiffers r.lastValue r.compareLength reply = true) ∨
      (r.reportMode = .periodic ∧
        (replyDiffers r.lastValue r.compareLength reply = true ∨ r.reportPeriod ≤ r.pollsSince + 1)) := by
  unfold NodeRecord.reportDue
  cases hm : r.reportMode with
  | every => simp
  | onChange => simp
  | periodic => simp

/-! ### What the decision does -/

section
variable {s : State} {r : NodeRecord} {reply : List Byte}

/-- With no report due, the polls since the last one are counted and nothing else changes (R80). -/
theorem State.reportDecision_notDue (h : ¬ r.reportDue reply = true) (b : Branch) :
    s.reportDecision b r reply =
      s.onNode r.address fun q => { q with pollsSince := bump255 q.pollsSince } :=
  if_neg h

/-- Below the ceiling a due report is admitted, and the reply becomes the last value (R80, R124). -/
theorem State.reportDecision_admitted (h : r.reportDue reply = true) (hroom : s.occupancy < 40) (b : Branch) :
    s.reportDecision b r reply =
      (s.addEntry .report (reportPayload r.address b (s.br b).cycle.number reply)).onNode r.address
        fun q => { q with lastValue := some reply, pollsSince := 0 } :=
  (if_pos h).trans (if_pos hroom)

/-- At the ceiling a due report is dropped and counted, and the record counts on as if none were due (R80, R127). -/
theorem State.reportDecision_refused (h : r.reportDue reply = true) (hfull : 40 ≤ s.occupancy) (b : Branch) :
    s.reportDecision b r reply =
      State.onNode { s.signalDevice .reportDropped with droppedReports := bump s.droppedReports } r.address
        fun q => { q with pollsSince := bump255 q.pollsSince } :=
  (if_pos h).trans (if_neg (Nat.not_lt.2 hfull))

end

end Sys2Proof.Machine

/-! ### The statement -/

namespace Sys2Proof.Reports
open Sys2Proof.Machine

/-- Settles O49: the last value decides the comparison, and then whether a report is due and the pool's occupancy
decide what becomes of it. -/
theorem reportDecision : Obligations.ReportDecision := by
  refine ⟨?compared, ?decided⟩
  case compared =>
    intro last k reply
    cases last with
    | none => simp [replyDiffers_none]
    | some v => simp [replyDiffers_some_iff]
  case decided =>
    intro s b r reply differs due counted
    have hdue : r.reportDue reply = true ↔ due := NodeRecord.reportDue_iff
    refine ⟨fun h => ?notDue, fun h hroom => ?admitted, fun h hfull => ?refused⟩
    case notDue => exact State.reportDecision_notDue (mt hdue.1 h) b
    case admitted => exact State.reportDecision_admitted (hdue.2 h) hroom b
    case refused => exact State.reportDecision_refused (hdue.2 h) hfull b

end Sys2Proof.Reports
end

section
/-! PROOFS. The statements about relayed commands and the modes of a branch: the start of an on-demand transaction (R108
to R111), Downlink Admission (R92 to R95), and the taking of a change of mode (R59, R60, R104 to R106, R190). -/
namespace Sys2Proof.Machine

/-! ### When a transaction starts -/

theorem SupplyState.usable_iff {v : SupplyState} : v.usable = true ↔ v = .normal ∨ v = .lowPending := by
  cases v <;> simp [SupplyState.usable]

theorem SupplyState.usable_eq_false {v : SupplyState} (hn : v ≠ .normal) (hl : v ≠ .lowPending) : v.usable = false :=
  Bool.eq_false_iff.2 fun h => (SupplyState.usable_iff.1 h).elim hn hl

/-- An idle ON_DEMAND branch that would start a transaction if its queue held a command (R108). -/
def BranchState.Ready (B : BranchState) : Prop :=
  B.current = .onDemand ∧ B.requested = .onDemand ∧ B.supplyWait = false ∧
    (B.sup.state = .normal ∨ B.sup.state = .lowPending) ∧ B.slot = none

theorem State.mayTransact_iff {s : State} {b : Branch} :
    s.mayTransact b = true ↔ (s.br b).Ready ∧ (s.br b).queue ≠ [] := by
  simp only [State.mayTransact, BranchState.Ready, BranchState.changePending, Bool.and_eq_true, beq_iff_eq,
    Bool.not_eq_true', bne_eq_false_iff_eq, SupplyState.usable_iff, Option.isNone_iff_eq_none,
    List.isEmpty_eq_false_iff, and_assoc]
  exact and_congr_right fun hc => by rw [hc]

theorem State.runTransactions_idle {s : State} {b : Branch} (h : ¬ s.mayTransact b = true) (n : Nat) :
    State.runTransactions b n s = s := by
  cases n with
  | zero => rfl
  | succ n => exact if_neg h

theorem State.kick_idle {s : State} {b : Branch} (h : ¬ (s.br b).Ready ∨ (s.br b).queue = []) : s.kick b = s := by
  refine State.runTransactions_idle (fun hm => ?_) _
  obtain ⟨hready, hqueue⟩ := State.mayTransact_iff.1 hm
  exact h.elim (· hready) hqueue

/-! ### What the start of a transaction does -/

/-- The part with the head of DQb removed, the rest of the queue being `rest` (R109). -/
def State.takeHead (s : State) (b : Branch) (rest : List Command) : State := s.onBr b fun B => { B with queue := rest }

/-- A change of a record leaves the branches, and so comes before or after a change of one alike. -/
theorem State.onBr_onNode (s : State) (b : Branch) (g : BranchState → BranchState) (a : Nat)
    (f : NodeRecord → NodeRecord) : (s.onBr b g).onNode a f = (s.onNode a f).onBr b g := rfl

section
variable {s : State} {b : Branch} {c : Command} {rest : List Command} {r : NodeRecord}

/-- The transaction of the head of DQb is started, and those of the other entries may follow it (R110). -/
theorem State.kick_ready (h : (s.br b).Ready) (hq : (s.br b).queue = c :: rest) :
    s.kick b = State.runTransactions b rest.length (s.startTransaction b) := by
  rw [State.kick, hq, List.length_cons, State.runTransactions, if_pos (State.mayTransact_iff.2 ⟨h, by simp [hq]⟩)]

theorem State.startTransaction_noRoute (hq : (s.br b).queue = c :: rest)
    (hn : ∀ r, s.node? c.node = some r → r.branch ≠ b) :
    s.startTransaction b = (s.takeHead b rest).convert c.tag c.node .noRoute [] := by
  simp only [State.startTransaction, hq, State.onBr_node?]
  cases hf : s.node? c.node with
  | none => rfl
  | some r => exact if_pos (hn r hf)

theorem State.startTransaction_inactive (hq : (s.br b).queue = c :: rest) (hn : s.node? c.node = some r)
    (hb : r.branch = b) (hi : r.health = .inactive) :
    s.startTransaction b = (s.takeHead b rest).convert c.tag c.node .nodeInactive [] := by
  simp only [State.startTransaction, hq, State.onBr_node?, hn, if_neg (not_not.2 hb), if_pos hi]
  rfl

theorem State.startTransaction_sends (hq : (s.br b).queue = c :: rest) (hn : s.node? c.node = some r)
    (hb : r.branch = b) (hi : r.health ≠ .inactive) :
    s.startTransaction b = (s.takeHead b rest).launch b r c (s.br b).odWindow (s.br b).odRetries := by
  simp only [State.startTransaction, hq, State.onBr_node?, hn, if_neg (not_not.2 hb), if_neg hi, State.onBr_br_same]
  rfl

/-- A command ended at the start of its transaction leaves the branch idle, and the rest of the queue is due (R110). -/
theorem State.kick_ended {status : ResultStatus} (h : (s.br b).Ready) (hq : (s.br b).queue = c :: rest)
    (hs : s.startTransaction b = (s.takeHead b rest).convert c.tag c.node status []) :
    s.kick b = ((s.takeHead b rest).convert c.tag c.node status []).kick b := by
  have hrest : (((s.takeHead b rest).convert c.tag c.node status []).br b).queue = rest := by
    simp [State.takeHead]
  rw [State.kick_ready h hq, hs, State.kick, hrest]

/-- The head of DQb launched is one change of the record found, its toggle, and one of the branch: the CMD on the line and
the slot record behind it (R34, R91, R109). -/
theorem State.takeHead_launch (s : State) (b : Branch) (rest : List Command) (r : NodeRecord) (c : Command)
    (window retries : Nat) :
    (s.takeHead b rest).launch b r c window retries =
      (s.onNode r.address fun q => { q with toggle := !r.toggle }).onBr b fun B => { B with
        queue := rest
        line := .sending (cmdFrame r.address (!r.toggle) c.payload)
        slot := some { rate := (s.br b).rate, phase := .sending
                       work := .poll { node := r.address, window := window, retriesLeft := retries
                                       frame := .cmd (!r.toggle) { tag := c.tag, node := c.node, payload := c.payload }
                                       failure := none, reply := none, quietFrom := .handOver } } } := by
  simp only [State.takeHead, State.launch, State.beginAttempt, State.onBr_onNode, State.onBr_onBr, State.onBr_br_same]
  rfl

/-- A CMD on the line keeps further transactions from starting (R108). -/
theorem State.kick_launched (h : (s.br b).Ready) (hq : (s.br b).queue = c :: rest) (hn : s.node? c.node = some r)
    (hb : r.branch = b) (hi : r.health ≠ .inactive) :
    s.kick b = (s.takeHead b rest).launch b r c (s.br b).odWindow (s.br b).odRetries := by
  rw [State.kick_ready h hq, State.startTransaction_sends hq hn hb hi]
  refine State.runTransactions_idle (fun hm => ?_) _
  obtain ⟨⟨-, -, -, -, hslot⟩, -⟩ := State.mayTransact_iff.1 hm
  simp [State.launch, State.beginAttempt] at hslot

end

theorem yesNo_not (t : Bool) : yesNo (!t) = if t then 0 else 1 := by cases t <;> rfl

/-! ### The decision of a relay -/

section
variable {s : State} {node : Nat} {p : List Byte} {r : NodeRecord}

/-- A full pool drops a relay before anything else of it is judged (R92, R93). -/
theorem State.decideRelay_dropped (h : poolSize ≤ s.occupancy) : s.decideRelay node p = .dropped := if_pos h

/-- A relay that finds room in the pool is judged by its length, and then by its record (R92). -/
theorem State.decideRelay_tooLong (hroom : s.occupancy < poolSize) (h : 24 < p.length) :
    s.decideRelay node p = .notice .tooLong :=
  (if_neg (Nat.not_le.2 hroom)).trans (if_pos h)

theorem State.decideRelay_noRoute (hroom : s.occupancy < poolSize) (hp : p.length ≤ 24) (h : s.node? node = none) :
    s.decideRelay node p = .notice .noRoute := by
  rw [State.decideRelay, if_neg (Nat.not_le.2 hroom), if_neg (Nat.not_lt.2 hp), h]

/-- What the branch of the record found makes of a relay: the last checks of R92. -/
def BranchState.admission (B : BranchState) (r : NodeRecord) : RelayDecision :=
  if B.current = .off ∨ B.requested = .off then .notice .branchOff
  else if !B.sup.state.usable then .notice .lineFault
  else if queueDepth ≤ B.queue.length then .notice .queueFull
  else .accepted r.branch r.lifetime

theorem State.decideRelay_found (hroom : s.occupancy < poolSize) (hp : p.length ≤ 24) (h : s.node? node = some r) :
    s.decideRelay node p = (s.br r.branch).admission r := by
  rw [State.decideRelay, if_neg (Nat.not_le.2 hroom), if_neg (Nat.not_lt.2 hp), h]
  rfl

end

section
variable {B : BranchState} {r : NodeRecord}

theorem BranchState.admission_off (h : B.current = .off ∨ B.requested = .off) :
    B.admission r = .notice .branchOff := if_pos h

theorem BranchState.admission_lineFault (hc : B.current ≠ .off) (hr : B.requested ≠ .off)
    (hn : B.sup.state ≠ .normal) (hl : B.sup.state ≠ .lowPending) : B.admission r = .notice .lineFault := by
  rw [BranchState.admission, if_neg (not_or.2 ⟨hc, hr⟩), SupplyState.usable_eq_false hn hl]
  rfl

/-- A branch in use whose supply is good admits by the room in its queue (R92, R96). -/
theorem BranchState.admission_usable (hc : B.current ≠ .off) (hr : B.requested ≠ .off)
    (hs : B.sup.state = .normal ∨ B.sup.state = .lowPending) :
    B.admission r = if 8 ≤ B.queue.length then .notice .queueFull else .accepted r.branch r.lifetime := by
  rw [BranchState.admission, if_neg (not_or.2 ⟨hc, hr⟩), SupplyState.usable_iff.2 hs]
  rfl

end

/-! ### What the decision does -/

section
variable {s : State} {node : Nat} {tag : Byte} {p : List Byte}

theorem exec_relay (s : State) (a tag : Byte) (p : List Byte) :
    exec (.relay a tag p) s = .next (s.arrived.takeRelay a.toNat tag p).choice := rfl

theorem State.takeRelay_dropped (h : s.decideRelay node p = .dropped) :
    s.takeRelay node tag p = { s.signalDevice .relayDropped with relaysDropped := bump s.relaysDropped } := by
  rw [State.takeRelay, h]

theorem State.takeRelay_notice {status : ResultStatus} (h : s.decideRelay node p = .notice status) :
    s.takeRelay node tag p = s.notice tag node status := by
  rw [State.takeRelay, h]

theorem State.takeRelay_accepted {b : Branch} {lifetime : Nat} (h : s.decideRelay node p = .accepted b lifetime) :
    s.takeRelay node tag p =
      s.accept b { tag := tag, node := node, payload := p, age := 0, lifetime := lifetime } := by
  rw [State.takeRelay, h]

end

/-- A notice names the node by the address byte its relay carried (R94, R129). -/
theorem State.notice_eq (s : State) (tag a : Byte) (status : ResultStatus) :
    s.notice tag a.toNat status =
      { s with pool := s.pool ++ [{ cls := .result, payload := [tag, a, status.code, 0], state := .queued }] } := by
  have ha : byte a.toNat = a := by simp [byte]
  rw [State.notice, resultPayload, ha]
  rfl

/-- An acceptance reserves a credit, and changes its branch once: the entry at the tail, and the counter (R95). -/
theorem State.accept_eq (s : State) (b : Branch) (c : Command) :
    s.accept b c = State.kick { s with
      credits := s.credits + 1
      branches := s.branches.set b { s.br b with
        queue := (s.br b).queue ++ [c]
        counters := { (s.br b).counters with commandsAccepted := bump (s.br b).counters.commandsAccepted } } } b := by
  rw [State.accept, State.count, State.onBr_onBr]
  rfl

/-! ### The taking of a change of mode -/

/-- The requested mode becomes the current mode, before the effects of the change (R103). -/
def State.adoptMode (s : State) (b : Branch) : State := s.onBr b fun B => { B with current := B.requested }

section
variable {s : State} {b : Branch}

/-- The current and the requested mode decide what follows the change (R60, R104 to R106). -/
theorem State.takeChange_eq (s : State) (b : Branch) :
    s.takeChange b =
      match (s.br b).current, (s.br b).requested with
      | .scheduled, .onDemand => ((s.adoptMode b).endCycling b).kick b
      | .scheduled, .off => ((s.adoptMode b).endCycling b).goOff b
      | .onDemand, .off => (s.adoptMode b).goOff b
      | .onDemand, .scheduled => (s.adoptMode b).beginCycling b
      | .off, .scheduled | .off, .onDemand => (s.adoptMode b).awaitSupply b
      | .off, .off | .scheduled, .scheduled | .onDemand, .onDemand => s.adoptMode b := rfl

theorem State.takeChange_scheduled_off (hc : (s.br b).current = .scheduled) (hr : (s.br b).requested = .off) :
    s.takeChange b = ((s.adoptMode b).endCycling b).goOff b := by
  rw [State.takeChange_eq, hc, hr]

theorem State.takeChange_onDemand_off (hc : (s.br b).current = .onDemand) (hr : (s.br b).requested = .off) :
    s.takeChange b = (s.adoptMode b).goOff b := by
  rw [State.takeChange_eq, hc, hr]

theorem State.takeChange_scheduled_onDemand (hc : (s.br b).current = .scheduled)
    (hr : (s.br b).requested = .onDemand) : s.takeChange b = ((s.adoptMode b).endCycling b).kick b := by
  rw [State.takeChange_eq, hc, hr]

theorem State.takeChange_onDemand_scheduled (hc : (s.br b).current = .onDemand)
    (hr : (s.br b).requested = .scheduled) : s.takeChange b = (s.adoptMode b).beginCycling b := by
  rw [State.takeChange_eq, hc, hr]

theorem State.takeChange_fromOff (hc : (s.br b).current = .off) (hr : (s.br b).requested ≠ .off) :
    s.takeChange b = (s.adoptMode b).awaitSupply b := by
  rw [State.takeChange_eq, hc]
  cases hm : (s.br b).requested with
  | off => exact absurd hm hr
  | scheduled => rfl
  | onDemand => rfl

/-! ### The effects of a change -/

/-- Cycling ends and a swap that was pending is taken (R49, R60). -/
theorem State.endCycling_eq (s : State) (b : Branch) :
    s.endCycling b =
      if (s.br b).swapPending then
        (s.onCycle b fun c => { c with phase := .stopped, late := false, timer := none }).takeSwap b
      else s.onCycle b fun c => { c with phase := .stopped, late := false, timer := none } := by
  rw [State.endCycling, State.takePendingSwap, State.onCycle_br_same]

/-- DQb empties with a BRANCH_OFF for each entry, one credit each; the wait ends and the supervisor is DISABLED (R104,
R185). -/
theorem State.goOff_eq (s : State) (b : Branch) :
    s.goOff b = { s with
      pool := s.pool ++ (s.br b).queue.map (removedEntry .branchOff)
      credits := s.credits - (s.br b).queue.length
      branches := s.branches.set b { s.br b with
        queue := [], supplyWait := false
        sup := { (s.br b).sup with state := .disabled, restore := none, qualify := none, faultMark := false } } } := by
  rw [State.goOff, State.flushQueue_eq, State.onSup, State.onBr_onBr]
  simp only [State.onBr, State.br, Per.get_set_same, Per.set_set]

theorem State.beginCycling_waiting (h : (s.br b).supplyWait = true) : s.beginCycling b = s := if_pos h

theorem State.beginCycling_usable (hw : (s.br b).supplyWait = false)
    (h : (s.br b).sup.state = .normal ∨ (s.br b).sup.state = .lowPending) :
    s.beginCycling b = (s.startTimer b).cycleStart b := by
  rw [State.beginCycling, if_neg (Bool.eq_false_iff.1 hw), if_pos (SupplyState.usable_iff.2 h)]

theorem State.beginCycling_out (hw : (s.br b).supplyWait = false) (hn : (s.br b).sup.state ≠ .normal)
    (hl : (s.br b).sup.state ≠ .lowPending) : s.beginCycling b = (s.startTimer b).suspendedCycle b := by
  rw [State.beginCycling, if_neg (Bool.eq_false_iff.1 hw),
    if_neg (Bool.eq_false_iff.1 (SupplyState.usable_eq_false hn hl))]

end

/-- The wait mark and the supervisor are set as one change; the comparator reports above where the supply stands above
more thresholds than the level (R105, R184, R185, R189). -/
theorem State.awaitSupply_eq (s : State) (b : Branch) :
    s.awaitSupply b =
      let v := s.onBr b fun B => { B with
        supplyWait := true
        sup := { B.sup with
          state := .restorePending, qualify := none, faultMark := false
          restore := if B.sup.level < B.supply.val then some 0 else none } }
      if (s.br b).sup.enabled then v else v.reachNormal b := by
  simp only [State.awaitSupply, State.onSup, State.onBr_onBr, State.onBr_br_same, BranchState.above, reportsAbove,
    decide_eq_true_eq]
  rfl

theorem State.takePendingSwap_counters (s : State) (b : Branch) :
    ((s.takePendingSwap b).br b).counters = (s.br b).counters := by
  unfold State.takePendingSwap
  split
  · simp [State.takeSwap]
  · rfl

/-- After a pending swap a suspended cycle is one change of its branch, of a cycle and counters that the swap kept
(R59). -/
theorem State.suspendedCycle_eq (s : State) (b : Branch) :
    s.suspendedCycle b = (s.takePendingSwap b).onBr b fun B => { B with
      cycle := { B.cycle with number := (s.br b).cycle.number + 1, phase := .waiting }
      counters := { (s.br b).counters with suspended := bump (s.br b).counters.suspended } } := by
  rw [← State.takePendingSwap_cycle, ← State.takePendingSwap_counters]
  simp only [State.suspendedCycle, State.wait, State.count, State.onCycle, State.onBr_onBr]
  rfl

end Sys2Proof.Machine

/-! ### The statements -/

namespace Sys2Proof.Relays
open Sys2Proof.Machine

/-- Settles O43: an idle branch leaves the part as it is; a ready one starts the head of its queue, and what the lookup
finds ends that command and goes on with the rest, or sends it and occupies the branch. -/
theorem transactionStart : Obligations.TransactionStart := by
  intro s b B ready
  refine ⟨State.kick_idle, ?_⟩
  intro c rest hready hq taken ended
  refine ⟨fun hn => State.kick_ended hready hq (State.startTransaction_noRoute hq hn), fun r hn hb =>
    ⟨fun hi => State.kick_ended hready hq (State.startTransaction_inactive hq hn hb hi), fun hi => ?_⟩⟩
  rw [State.kick_launched hready hq hn hb hi, State.takeHead_launch, cmdFrame, yesNo_not]
  rfl

/-- Settles O18: the checks of R92 decide one after another, and the decision says what becomes of the relay. -/
theorem relayDecided : Obligations.RelayDecided := by
  intro s a tag p u notice
  have noticed {status : ResultStatus} (h : u.decideRelay a.toNat p = .notice status) :
      exec (.relay a tag p) s = .next (notice status.code).choice := by
    rw [exec_relay, State.takeRelay_notice h, State.notice_eq]
  refine ⟨fun h => ?dropped, fun hroom => ⟨fun hlong => noticed (State.decideRelay_tooLong hroom hlong), fun hp =>
    ⟨fun h => noticed (State.decideRelay_noRoute hroom hp h), fun r h => ?found⟩⟩⟩
  case dropped => rw [exec_relay, State.takeRelay_dropped (State.decideRelay_dropped h)]; rfl
  case found =>
    intro B
    have hfound : u.decideRelay a.toNat p = B.admission r := State.decideRelay_found hroom hp h
    refine ⟨fun ho => noticed (hfound.trans (BranchState.admission_off ho)), fun hc hr =>
      ⟨fun hn hl => noticed (hfound.trans (BranchState.admission_lineFault hc hr hn hl)), fun hs => ?usable⟩⟩
    case usable =>
      have husable := hfound.trans (BranchState.admission_usable hc hr hs)
      refine ⟨fun hfull => noticed (husable.trans (if_pos hfull)), fun hspace => ?_⟩
      rw [exec_relay, State.takeRelay_accepted (husable.trans (if_neg (Nat.not_le.2 hspace))), State.accept_eq]

/-- Settles O34: the old and the new mode decide which effects follow the change, and each effect is one change of the
part. -/
theorem modeChangeTaken : Obligations.ModeChangeTaken := by
  refine ⟨?change, State.awaitSupply_eq, State.suspendedCycle_eq⟩
  intro s b B v ended off timed
  have hv : s.adoptMode b = v := rfl
  have hB : v.br b = { B with current := B.requested } := Per.get_set_same _ _ _
  have hended : v.endCycling b = ended v := by
    rw [State.endCycling_eq, hB]; rfl
  have hoff (t : State) : t.goOff b = off t := t.goOff_eq b
  refine ⟨fun hc hr => ?scheduled_off, fun hc hr => ?onDemand_off, fun hc hr => ?scheduled_onDemand,
    fun hc hr => ?onDemand_scheduled, State.takeChange_fromOff⟩
  case scheduled_off => rw [State.takeChange_scheduled_off hc hr, hv, hended, hoff]
  case onDemand_off => rw [State.takeChange_onDemand_off hc hr, hv, hoff]
  case scheduled_onDemand => rw [State.takeChange_scheduled_onDemand hc hr, hv, hended]
  case onDemand_scheduled =>
    have htimed : v.startTimer b = timed := rfl
    rw [State.takeChange_onDemand_scheduled hc hr, hv, ← htimed]
    exact ⟨fun hw => State.beginCycling_waiting (hB ▸ hw),
      fun hw hs => State.beginCycling_usable (hB ▸ hw) (hB ▸ hs),
      fun hw hn hl => State.beginCycling_out (hB ▸ hw) (hB ▸ hn) (hB ▸ hl)⟩

end Sys2Proof.Relays
end

section
/-! PROOFS. The answer to a management request: how the response offered fares in the pool (R121, R130), what a dropped one
raises and counts, and the count of the queued entries. -/
namespace Sys2Proof.Machine

theorem State.queuedCount_eq_length_filter (s : State) (c : UplinkClass) :
    s.queuedCount c = (s.pool.filter fun e => e.state == .queued && e.cls == c).length :=
  List.countP_eq_length_filter ..

section
variable {u : State}

/-- With room and fewer than four responses QUEUED a response joins the pool's end (R121, R130). -/
theorem State.respond_admitted (hroom : u.occupancy < 48) (hfew : u.queuedCount .mgmtResp < 4) (tag : Byte) (r : Reply) :
    u.respond tag r =
      { u with pool := u.pool ++ [{ cls := .mgmtResp, payload := tag :: r.status.code :: r.data, state := .queued }] } :=
  if_pos ⟨hroom, hfew⟩

/-- Without room, or with four responses QUEUED, a response is lost: flag 3 of the device group is raised and the
response counted (R121). -/
theorem State.respond_dropped (hfull : 48 ≤ u.occupancy ∨ 4 ≤ u.queuedCount .mgmtResp) (tag : Byte) (r : Reply) :
    u.respond tag r =
      { u with eu := { u.eu with device := u.eu.device.raise 0x08 }, droppedResponses := bump u.droppedResponses } :=
  if_neg fun ⟨hroom, hfew⟩ => hfull.elim (Nat.not_le.2 hroom) (Nat.not_le.2 hfew)

end

end Sys2Proof.Machine

/-! ### The statement -/

namespace Sys2Proof.Responses
open Sys2Proof.Machine

/-- Settles O22: the room in the pool and the responses QUEUED decide how the response offered fares, and an answer is
that offer with no tag held and the Delivery Unit's choice after it. -/
theorem answersAreOffered : Obligations.AnswersAreOffered := by
  refine ⟨fun u tag status data => ⟨fun hroom hfew => ?admitted, fun hfull => ?dropped⟩, ?codes,
    fun s c tag => ⟨?occupancy, s.queuedCount_eq_length_filter c, ?inHand⟩⟩
  case admitted => rw [State.answered, State.respond_admitted hroom hfew]
  case dropped => rw [State.answered, State.respond_dropped hfull]
  case codes => rfl
  case occupancy => rfl
  case inHand => rfl

end Sys2Proof.Responses
end

section
/-! PROOFS. The acknowledgement: the numbers counted up from the oldest SENT one, the SENT numbers that progress leaves,
and the judgement's four outcomes (R142 to R145). -/
namespace Sys2Proof.Machine

/-! ### Sequence numbers modulo 16 -/

/-- How far a number stands after another (R142). -/
theorem seqDistance_toNat (q S : BitVec 4) : (q - S).toNat = (q.toNat + 16 - S.toNat) % 16 := by
  rw [BitVec.toNat_sub]
  omega

/-- The distance of a well-formed NEXT from the oldest SENT number (R142). -/
theorem ackDistance_toNat {next : Byte} (h : next.toNat ≤ 15) (S : BitVec 4) :
    (next.setWidth 4 - S).toNat = (next.toNat + 16 - S.toNat) % 16 := by
  rw [seqDistance_toNat, BitVec.toNat_setWidth, Nat.mod_eq_of_lt (by omega : next.toNat < 2 ^ 4)]

theorem mem_seqsFrom {q S : BitVec 4} {n : Nat} (few : n ≤ 16) : q ∈ seqsFrom S n ↔ (q - S).toNat < n := by
  simp only [seqsFrom, List.mem_map, List.mem_range]
  constructor
  · rintro ⟨k, hk, rfl⟩
    rwa [BitVec.add_comm, BitVec.add_sub_cancel, BitVec.toNat_ofNat, Nat.mod_eq_of_lt (by omega)]
  · intro h
    exact ⟨(q - S).toNat, h, by rw [BitVec.ofNat_toNat, BitVec.setWidth_eq, BitVec.add_comm, BitVec.sub_add_cancel]⟩

/-- No number counted up from `S` is left beyond the first `d` exactly where there are no more than `d`. -/
theorem filter_seqsFrom_eq_nil {S : BitVec 4} {n d : Nat} (few : n < 16) :
    ((seqsFrom S n).filter fun q => decide (d ≤ (q - S).toNat)) = [] ↔ n ≤ d := by
  simp only [List.filter_eq_nil_iff, mem_seqsFrom few.le, decide_eq_true_eq, Nat.not_le]
  constructor
  · intro hall
    by_contra hd
    have hdist : (S + BitVec.ofNat 4 d - S).toNat = d := by
      rw [BitVec.add_comm, BitVec.add_sub_cancel, BitVec.toNat_ofNat, Nat.mod_eq_of_lt (by omega)]
    have hlt := hall (S + BitVec.ofNat 4 d) (by omega)
    omega
  · exact fun hn q hq => by omega

/-! ### The SENT numbers of the pool -/

theorem State.sentCount_eq_length (s : State) : s.sentCount = s.sentSeqs.length := by
  rw [State.sentSeqs, List.length_filterMap_eq_countP, State.sentCount]
  refine List.countP_congr fun e _ => ?_
  cases h : e.state <;> simp [Entry.isQueued, Entry.seq?, h]

/-- With the SENT numbers counted up from `S` to the next one, `S` is the oldest (R142). -/
theorem State.oldestSeq_eq {s : State} {n : Nat} {S : BitVec 4} (count : s.sentCount = n)
    (next : s.du.nextSeq = S + BitVec.ofNat 4 n) : s.oldestSeq = S := by
  rw [State.oldestSeq, count, next, BitVec.add_sub_cancel]

/-- Whether an entry stays where the SENT numbers that `keep` holds of stay: a QUEUED entry always does (R143). -/
def Entry.stays (keep : BitVec 4 → Bool) (e : Entry) : Bool :=
  match e.state with
  | .queued => true
  | .sent q => keep q

theorem Entry.stays_eq (keep : BitVec 4 → Bool) (e : Entry) : e.stays keep = e.seq?.all keep := by
  unfold Entry.stays Entry.seq?
  cases e.state <;> rfl

theorem filterMap_seq?_filter_stays (keep : BitVec 4 → Bool) (l : List Entry) :
    (l.filter (Entry.stays keep)).filterMap Entry.seq? = (l.filterMap Entry.seq?).filter keep := by
  induction l with
  | nil => rfl
  | cons e rest ih =>
    cases h : e.seq? with
    | none => simp [Entry.stays_eq, h, ih]
    | some q => cases hk : keep q <;> simp [Entry.stays_eq, h, hk, ih]

/-- The part with its `d` oldest SENT entries freed, and nothing else changed (R143). -/
def State.freeOldest (s : State) (d : Nat) : State :=
  { s with pool := s.pool.filter (Entry.stays fun q => decide (d ≤ (q - s.oldestSeq).toNat)) }

theorem State.freeOldest_sentSeqs (s : State) (d : Nat) :
    (s.freeOldest d).sentSeqs = s.sentSeqs.filter fun q => decide (d ≤ (q - s.oldestSeq).toNat) :=
  filterMap_seq?_filter_stays _ s.pool

/-- With the `d` oldest entries freed nothing is SENT exactly where there were no more than `d` (R143). -/
theorem State.freeOldest_sentCount_eq_zero {s : State} {n d : Nat} (few : n < 16)
    (seqs : s.sentSeqs.Perm (seqsFrom s.oldestSeq n)) : (s.freeOldest d).sentCount = 0 ↔ n ≤ d := by
  rw [State.sentCount_eq_length, State.freeOldest_sentSeqs, (seqs.filter _).length_eq, List.length_eq_zero_iff,
    filter_seqsFrom_eq_nil few]

/-! ### The judgement -/

section
variable {s : State} {next : Byte} {payload : List Byte} {d : Nat}

theorem exec_ack (s : State) (next : Byte) (payload : List Byte) :
    exec (.ack next payload) s = .next (s.arrived.takeAck next payload).choice := rfl

theorem State.takeAck_malformed (h : 15 < next.toNat ∨ payload ≠ []) : s.takeAck next payload = s.staleAck := if_pos h

/-- A well-formed acknowledgement is judged by its distance from the oldest SENT number (R142). -/
theorem State.takeAck_wellFormed (hnext : next.toNat ≤ 15) (hd : d = (next.toNat + 16 - s.oldestSeq.toNat) % 16) :
    s.takeAck next [] =
      if s.sentCount = 0 then s else if d = 0 then s else if d ≤ s.sentCount then s.progress d else s.staleAck := by
  rw [State.takeAck, if_neg (by simpa using hnext), ackDistance_toNat hnext, ← hd]

section
variable (hnext : next.toNat ≤ 15) (hd : d = (next.toNat + 16 - s.oldestSeq.toNat) % 16)
include hnext hd

theorem State.takeAck_nothing (h : s.sentCount = 0 ∨ d = 0) : s.takeAck next [] = s := by
  rw [State.takeAck_wellFormed hnext hd]
  rcases h with h | h <;> simp [h]

theorem State.takeAck_stale (hpos : 0 < s.sentCount) (h : s.sentCount < d) : s.takeAck next [] = s.staleAck := by
  rw [State.takeAck_wellFormed hnext hd, if_neg (by omega), if_neg (by omega), if_neg (by omega)]

theorem State.takeAck_progress (hpos : 1 ≤ d) (h : d ≤ s.sentCount) : s.takeAck next [] = s.progress d := by
  rw [State.takeAck_wellFormed hnext hd, if_neg (by omega), if_neg (by omega), if_pos h]

end

/-- Progress frees the `d` oldest entries, clears the timeout count and ends RETRYING; the timer and the round end where
nothing is left SENT, and otherwise the timer restarts and a resend point that was freed moves to the oldest number left
(R143, R144). -/
theorem State.progress_eq (s : State) (d : Nat) :
    s.progress d = { s.freeOldest d with
      du := { s.du with
        timeoutCount := 0
        trunk := if s.du.trunk = .retrying then .up else s.du.trunk
        timer := if (s.freeOldest d).sentCount = 0 then none else some 0
        round := s.du.round.bind fun p =>
          if (s.freeOldest d).sentCount = 0 then none
          else if (p - s.oldestSeq).toNat < d then some (s.oldestSeq + BitVec.ofNat 4 d)
          else some p } } := by
  have hkeep (q : BitVec 4) : decide (d ≤ (q - s.oldestSeq).toNat) = !decide ((q - s.oldestSeq).toNat < d) := by
    rw [← decide_not, decide_eq_decide, Nat.not_lt]
  simp only [State.progress, State.freeOldest, hkeep, decide_eq_true_eq]
  cases s.du.round <;> rfl

/-- With the SENT numbers counted up from the oldest, progress by `d` leaves nothing SENT exactly where all of them are
freed (R143, R144). -/
theorem State.progress_of_seqs (few : s.sentCount < 16) (seqs : s.sentSeqs.Perm (seqsFrom s.oldestSeq s.sentCount))
    (hd : d ≤ s.sentCount) :
    s.progress d = { s.freeOldest d with
      du := { s.du with
        timeoutCount := 0
        trunk := if s.du.trunk = .retrying then .up else s.du.trunk
        timer := if d = s.sentCount then none else some 0
        round := s.du.round.bind fun p =>
          if d = s.sentCount then none
          else if (p - s.oldestSeq).toNat < d then some (s.oldestSeq + BitVec.ofNat 4 d)
          else some p } } := by
  have hleft : (s.freeOldest d).sentCount = 0 ↔ d = s.sentCount := by
    rw [State.freeOldest_sentCount_eq_zero few seqs]
    omega
  simp only [State.progress_eq, hleft]

end

end Sys2Proof.Machine

/-! ### The statement -/

namespace Sys2Proof.Acknowledgements
open Sys2Proof.Machine

/-- Settles O14: the form, the count of SENT entries and the distance of NEXT from the oldest decide the judgement, and
progress by `d` leaves nothing SENT exactly where `d` is that count. -/
theorem ackJudged : Obligations.AckJudged := by
  intro s next payload n S few count seqs hnext u stale d
  obtain rfl : u.oldestSeq = S := State.oldestSeq_eq count hnext
  subst count
  refine ⟨fun h => ?malformed, fun hform hpayload => ?wellFormed⟩
  case malformed => rw [exec_ack, State.takeAck_malformed h]; rfl
  case wellFormed =>
    subst hpayload
    rw [exec_ack]
    refine ⟨fun h => ?nothing, fun hpos h => ?stale, fun hpos h => ?progress⟩
    case nothing => rw [State.takeAck_nothing hform rfl h]
    case stale => rw [State.takeAck_stale hform rfl hpos h]; rfl
    case progress =>
      rw [State.takeAck_progress hform rfl hpos h, State.progress_of_seqs (by omega) seqs h]
      simp only [State.freeOldest, seqDistance_toNat]
      rfl

end Sys2Proof.Acknowledgements
end

section
/-! PROOFS. The statement about CLEAR_FLAGS and CLEAR_COUNTERS: the two requests by the group they name (R170, R172), and
the count of dropped responses after an answer to a part that has just cleared it. -/
namespace Sys2Proof.Machine

theorem exec_clearFlags (s : State) (tag group set : Byte) :
    exec (.clearFlags tag group set) s = .next (s.requestFrame tag (requestClearFlags group set)) := rfl

theorem exec_clearCounters (s : State) (tag group : Byte) :
    exec (.clearCounters tag group) s = .next (s.requestFrame tag (requestClearCounters group)) := rfl

/-! ### The group and the set named -/

theorem Group.ofNat?_device : Group.ofNat? (4 : Byte).toNat = some .device := rfl

/-- Bit 7 is the one that no flag of a branch group has (R174, R191). -/
theorem Group.compl_flagSet_branch (b : Branch) : ~~~(Group.branch b).flagSet = 0x80 := by cases b <;> decide

/-- Bits 5 to 7 are those that no flag of the device group has (R174, R191). -/
theorem Group.compl_flagSet_device : ~~~Group.device.flagSet = 0xE0 := by decide

/-! ### The requests, case by case -/

section
variable {group set : Byte} {g : Group}

theorem requestClearFlags_badIndex (h : 4 < group.toNat) (set : Byte) (s : State) :
    requestClearFlags group set s = (s, .refused .badIndex) := by
  rw [requestClearFlags, Group.ofNat?_none h]

/-- A set that names a flag the group does not have is refused (R170). -/
theorem requestClearFlags_badValue (hg : Group.ofNat? group.toNat = some g) (h : set &&& ~~~g.flagSet ≠ 0) (s : State) :
    requestClearFlags group set s = (s, .refused .badValue) := by
  simp only [requestClearFlags, hg, flagSetValue, if_neg h]

/-- A set of the group's own flags is cleared, in that group alone (R170). -/
theorem requestClearFlags_done (hg : Group.ofNat? group.toNat = some g) (h : set &&& ~~~g.flagSet = 0) (s : State) :
    requestClearFlags group set s = ({ s with eu := s.eu.onGroup g (·.clear set) }, .done) := by
  simp only [requestClearFlags, hg, flagSetValue, if_pos h]

theorem requestClearCounters_badIndex (h : 4 < group.toNat) (s : State) :
    requestClearCounters group s = (s, .refused .badIndex) := by
  rw [requestClearCounters, Group.ofNat?_none h]

theorem requestClearCounters_done (hg : Group.ofNat? group.toNat = some g) (s : State) :
    requestClearCounters group s = (s.clearGroup g, .done) := by
  rw [requestClearCounters, hg]

end

/-! ### The request frames -/

section
variable {s : State} {tag group set : Byte} {g : Group}

/-- CLEAR_FLAGS of a group, by whether the set names only flags that the group has (R170). -/
theorem exec_clearFlags_group (hg : Group.ofNat? group.toNat = some g) :
    (set &&& ~~~g.flagSet ≠ 0 → exec (.clearFlags tag group set) s = .next (s.arrived.answered tag .badValue [])) ∧
    (set &&& ~~~g.flagSet = 0 → exec (.clearFlags tag group set) s = .next (State.answered
      { s.inHand tag with eu := s.arrived.eu.onGroup g (·.clear set) } tag .ok [])) := by
  rw [exec_clearFlags]
  exact ⟨fun h => congrArg _ (State.requestFrame_refused (requestClearFlags_badValue hg h _)),
    fun h => congrArg _ (State.requestFrame_done (requestClearFlags_done hg h _))⟩

/-- CLEAR_COUNTERS of a group is answered by the part with that group's counters already cleared (R158, R172). -/
theorem exec_clearCounters_group (hg : Group.ofNat? group.toNat = some g) :
    exec (.clearCounters tag group) s = .next (((s.inHand tag).clearGroup g).answered tag .ok []) := by
  rw [exec_clearCounters, State.requestFrame_done (requestClearCounters_done hg _)]

end

/-! ### The response dropped -/

/-- An answer for which the pool has no room counts one dropped response (R121); the Delivery Unit's choice counts
none. -/
theorem State.answered_droppedResponses {u : State} (hfull : 48 ≤ u.occupancy ∨ 4 ≤ u.queuedCount .mgmtResp) (tag : Byte)
    (status : Status) (data : List Byte) :
    (u.answered tag status data).droppedResponses = bump u.droppedResponses := by
  rw [State.answered, deliveryStep_choice.droppedResponses, State.respond_dropped hfull]

/-- Neither the tag in hand nor the clear reaches the pool, so the room for the response is that at arrival (R121,
R172). -/
theorem State.clearDevice_full {s : State} (tag : Byte)
    (hfull : 48 ≤ s.arrived.occupancy ∨ 4 ≤ s.arrived.queuedCount .mgmtResp) :
    48 ≤ ((s.inHand tag).clearGroup .device).occupancy ∨
      4 ≤ ((s.inHand tag).clearGroup .device).queuedCount .mgmtResp := hfull

end Sys2Proof.Machine

/-! ### The statement -/

namespace Sys2Proof.GroupRequests
open Sys2Proof.Machine

/-- Settles O35: the group named, and for flags the set, decide each answer, and a response dropped after the counters
are cleared is the first one counted. -/
theorem clearFlagsAndCounters : Obligations.ClearFlagsAndCounters := by
  refine ⟨?flags, ?counters⟩
  case flags =>
    intro s tag group set u v
    refine ⟨fun h => ?outside, ?branch, ?device⟩
    case outside => rw [exec_clearFlags, State.requestFrame_refused (requestClearFlags_badIndex h set _)]
    case branch =>
      rintro b rfl
      rw [← Group.compl_flagSet_branch b]
      exact exec_clearFlags_group (Group.ofNat?_toNat b)
    case device =>
      rintro rfl
      rw [← Group.compl_flagSet_device]
      exact exec_clearFlags_group Group.ofNat?_device
  case counters =>
    intro s tag group u v
    refine ⟨fun h => ?outside, ?branch, ?device⟩
    case outside => rw [exec_clearCounters, State.requestFrame_refused (requestClearCounters_badIndex h _)]
    case branch =>
      rintro b rfl
      exact exec_clearCounters_group (Group.ofNat?_toNat b)
    case device =>
      rintro rfl
      have cleared : exec (.clearCounters tag 4) s = .next ((v.clearGroup .device).answered tag .ok []) :=
        exec_clearCounters_group Group.ofNat?_device
      refine ⟨cleared, fun hfull => ⟨_, cleared, ?_⟩⟩
      rw [State.answered_droppedResponses (State.clearDevice_full tag hfull)]
      rfl

end Sys2Proof.GroupRequests
end

section
/-! PROOFS. The statement about signals: what a signal makes of a group by the flag and its enable (R175), and that the
signals of two flags commute, because two flags of a group are the same one or share no bit (R191). -/
namespace Sys2Proof.Machine

/-! ### One signal -/

section
variable {g : FlagGroup} {mask : Byte}

/-- A signal of a clear flag sets it, and leaves the group pending as it was or as the flag's enable makes it (R175). -/
theorem FlagGroup.raise_clear (h : g.flags &&& mask = 0) :
    g.raise mask = { g with flags := g.flags ||| mask, pending := g.pending || (g.enables &&& mask != 0) } :=
  if_pos h

theorem FlagGroup.raise_clear_enabled (h : g.flags &&& mask = 0) (enabled : g.enables &&& mask ≠ 0) :
    g.raise mask = { g with flags := g.flags ||| mask, pending := true } := by
  rw [raise_clear h, bne_iff_ne.mpr enabled, Bool.or_true]

theorem FlagGroup.raise_clear_disabled (h : g.flags &&& mask = 0) (disabled : g.enables &&& mask = 0) :
    g.raise mask = { g with flags := g.flags ||| mask } := by
  rw [raise_clear h, disabled, bne_self_eq_false, Bool.or_false]

theorem FlagGroup.raise_set (h : g.flags &&& mask ≠ 0) : g.raise mask = g := if_neg h

end

/-! ### Two signals -/

/-- A signal leaves every flag that shares no bit with its own as it found it. -/
theorem FlagGroup.raise_flags_and (g : FlagGroup) {m n : Byte} (disjoint : m &&& n = 0) :
    (g.raise m).flags &&& n = g.flags &&& n := by
  by_cases h : g.flags &&& m = 0
  · calc (g.raise m).flags &&& n = (g.flags ||| m) &&& n := by rw [raise_clear h]
      _ = (g.flags &&& n) ||| (m &&& n) := BitVec.and_or_distrib_right
      _ = g.flags &&& n := by simp [disjoint]
  · rw [raise_set h]

/-- The signals of two flags come to the same in either order: neither changes what the other finds, its flag or its
enable (R175). -/
theorem FlagGroup.raise_comm (g : FlagGroup) {m n : Byte} (apart : m = n ∨ m &&& n = 0) :
    (g.raise m).raise n = (g.raise n).raise m := by
  obtain rfl | disjoint := apart
  · rfl
  have findsN := g.raise_flags_and disjoint
  have findsM := g.raise_flags_and ((BitVec.and_comm n m).trans disjoint)
  by_cases hm : g.flags &&& m = 0
  · by_cases hn : g.flags &&& n = 0
    · rw [raise_clear (findsN.trans hn), raise_clear (findsM.trans hm), raise_clear hm, raise_clear hn]
      simp only [BitVec.or_assoc, BitVec.or_comm m n, Bool.or_right_comm]
    · rw [raise_set (findsN.trans_ne hn), raise_set hn]
  · rw [raise_set (findsM.trans_ne hm), raise_set hm]

theorem BranchFlag.mask_apart (f h : BranchFlag) : f.mask = h.mask ∨ f.mask &&& h.mask = 0 := by
  cases f <;> cases h <;> decide

theorem DeviceFlag.mask_apart (f h : DeviceFlag) : f.mask = h.mask ∨ f.mask &&& h.mask = 0 := by
  cases f <;> cases h <;> decide

/-! ### The signal in its group -/

/-- A signal reaches the group of its branch alone (R175). -/
theorem State.signal_eq (s : State) (b : Branch) (f : BranchFlag) :
    s.signal b f = { s with eu := { s.eu with groups := s.eu.groups.set b ((s.eu.groups.get b).raise f.mask) } } := rfl

/-- A device signal reaches group 4 alone (R175). -/
theorem State.signalDevice_eq (s : State) (f : DeviceFlag) :
    s.signalDevice f = { s with eu := { s.eu with device := s.eu.device.raise f.mask } } := rfl

/-- A node event signals, and writes the last-node byte of its branch in every case (R176). -/
theorem State.signalNode_eq (s : State) (b : Branch) (f : BranchFlag) (a : Nat) :
    s.signalNode b f a = { s with eu := { s.eu with
      groups := s.eu.groups.set b ((s.eu.groups.get b).raise f.mask), lastNode := s.eu.lastNode.set b a } } := by
  rw [State.signalNode, State.signal_eq]

end Sys2Proof.Machine

/-! ### The statement -/

namespace Sys2Proof.Signals
open Sys2Proof.Machine

/-- Settles O37: the flag and its enable decide what a signal makes of its group, and two flags of a group share no bit,
so that their signals commute. -/
theorem signalRule : Obligations.SignalRule := by
  refine ⟨⟨?oneSignal, ?branchOrder, ?deviceOrder, State.signal_eq, State.signalDevice_eq⟩,
    ?branchBits, ?deviceBits, State.signalNode_eq⟩
  case oneSignal =>
    exact fun g mask => ⟨FlagGroup.raise_clear_enabled, FlagGroup.raise_clear_disabled, FlagGroup.raise_set⟩
  case branchOrder => exact fun g f h => g.raise_comm (f.mask_apart h)
  case deviceOrder => exact fun g f h => g.raise_comm (f.mask_apart h)
  case branchBits => rfl
  case deviceBits => rfl

end Sys2Proof.Signals
end

section
/-! PROOFS. The statement about the restore of the supply: what the expiry of a restore timer comes to, the part as the
supervisor in NORMAL leaves it, and how the engine goes on from there by its wait mark and its mode (R105, R188). -/
namespace Sys2Proof.Machine

section
variable {s : State} {b : Branch}

/-! ### The expiry -/

/-- The restore timer of a RESTORE_PENDING supervisor expires while it runs (R185, log 3). -/
theorem exec_restoreTimerExpiry (hp : (s.br b).sup.state = .restorePending) (hr : (s.br b).sup.restore ≠ none) :
    exec (.restoreTimerExpiry b) s = .next (s.reachNormal b).choice := by
  obtain ⟨count, hcount⟩ := Option.ne_none_iff_exists'.1 hr
  show execRestoreTimerExpiry b s = _
  rw [execRestoreTimerExpiry]
  simp only [hp, hcount]

/-! ### The supervisor in NORMAL -/

/-- The wait mark of branch `b` clear, and nothing else changed (R105). -/
def State.clearWait (s : State) (b : Branch) : State := s.onBr b fun B => { B with supplyWait := false }

theorem Per.set_get {α : Type} (p : Per α) (b : Branch) : p.set b (p.get b) = p := by cases b <;> rfl

theorem State.clearWait_of_clear (h : (s.br b).supplyWait = false) : s.clearWait b = s := by
  rw [State.clearWait, State.onBr, ← h]
  exact congrArg (fun p => { s with branches := p }) (Per.set_get s.branches b)

/-- Supervisor `b` in NORMAL with its fault mark clear, SUPPLY_RESTORED signalled where the mark was set, and its engine
not yet told (R188). -/
def State.supplyNormal (s : State) (b : Branch) : State :=
  let t := s.onSup b fun v => { v with state := .normal, restore := none, faultMark := false }
  if (s.br b).sup.faultMark then t.signal b .supplyRestored else t

theorem State.supplyNormal_br (s : State) (b : Branch) :
    (s.supplyNormal b).br b =
      { s.br b with sup := { (s.br b).sup with state := .normal, restore := none, faultMark := false } } := by
  unfold State.supplyNormal
  split <;> simp

/-- The supervisor in NORMAL and the wait mark clear are one change of the branch, with the signal beside it (R188). -/
theorem State.supplyNormal_clearWait (s : State) (b : Branch) :
    (s.supplyNormal b).clearWait b = { s with
      eu := if (s.br b).sup.faultMark then
          { s.eu with groups := s.eu.groups.set b ((s.eu.groups.get b).raise 0x40) }
        else s.eu
      branches := s.branches.set b { s.br b with
        supplyWait := false
        sup := { (s.br b).sup with state := .normal, restore := none, faultMark := false } } } := by
  rw [State.clearWait, State.onBr, State.supplyNormal_br]
  unfold State.supplyNormal
  split
  case isTrue => exact congrArg (fun p => { (s.signal b .supplyRestored) with branches := p }) (Per.set_set ..)
  case isFalse => exact congrArg (fun p => { s with branches := p }) (Per.set_set ..)

/-! ### The engine told -/

/-- The engine is told: one that waited begins work with its mark clear, and any other goes on (R188). -/
theorem State.reachNormal_eq (s : State) (b : Branch) :
    s.reachNormal b =
      if (s.br b).supplyWait then ((s.supplyNormal b).clearWait b).beginWork b else (s.supplyNormal b).kick b := by
  have hwait : ((s.supplyNormal b).br b).supplyWait = (s.br b).supplyWait := by rw [State.supplyNormal_br]
  rw [← hwait]
  rfl

theorem State.reachNormal_waiting (h : (s.br b).supplyWait = true) :
    s.reachNormal b = ((s.supplyNormal b).clearWait b).beginWork b := by
  rw [State.reachNormal_eq, if_pos h]

theorem State.reachNormal_working (h : (s.br b).supplyWait = false) :
    s.reachNormal b = ((s.supplyNormal b).clearWait b).kick b := by
  have hclear : ((s.supplyNormal b).br b).supplyWait = false := by rw [State.supplyNormal_br, h]
  rw [State.reachNormal_eq, if_neg (Bool.eq_false_iff.1 h), State.clearWait_of_clear hclear]

theorem State.beginWork_scheduled (h : (s.br b).current = .scheduled) :
    s.beginWork b = (s.startTimer b).cycleStart b := by rw [State.beginWork, h]

theorem State.beginWork_onDemand (h : (s.br b).current = .onDemand) : s.beginWork b = s.kick b := by
  rw [State.beginWork, h]

theorem State.beginWork_off (h : (s.br b).current = .off) : s.beginWork b = s := by rw [State.beginWork, h]

end

end Sys2Proof.Machine

/-! ### The statement -/

namespace Sys2Proof.Supply
open Sys2Proof.Machine

/-- Settles O52: the wait mark decides whether the engine begins work, and the mode what work it begins. -/
theorem supplyRestored : Obligations.SupplyRestored := by
  intro s b B t
  have ht : (s.supplyNormal b).clearWait b = t := s.supplyNormal_clearWait b
  have hbr : t.br b = { B with
      supplyWait := false, sup := { B.sup with state := .normal, restore := none, faultMark := false } } :=
    Per.get_set_same _ _ _
  refine ⟨exec_restoreTimerExpiry, fun hw => ?working, fun hw => ?waiting⟩
  case working => rw [State.reachNormal_working hw, ht]
  case waiting =>
    have hcurrent : (t.br b).current = B.current := by rw [hbr]
    rw [State.reachNormal_waiting hw, ht]
    refine ⟨fun hc => State.beginWork_onDemand (hcurrent.trans hc), fun hc => State.beginWork_off (hcurrent.trans hc),
      fun hc => ?scheduled⟩
    case scheduled =>
      have hcycle : (t.br b).cycle = B.cycle := by rw [hbr]
      rw [State.beginWork_scheduled (hcurrent.trans hc), ← hcycle]
      rfl

end Sys2Proof.Supply
end

section
/-! PROOFS. Every row by what it comes to: a request row is a good frame whose payload is taken, a row of a branch is work
of that branch and, for most rows, the Delivery Unit's choice. -/
namespace Sys2Proof.Machine

/-! ### Request rows -/

/-- The payload of a WRITE is that WRITE (R165, Formats). -/
theorem Request.ofPayload_write (table key item : Byte) (fields : List Byte) :
    Request.ofPayload (writePayload table key item fields) = .write table key item fields := by
  rcases fields with _ | ⟨v, _ | ⟨w, rest⟩⟩ <;> rfl

/-- A payload that is a WRITE is taken as a request to be answered. -/
theorem State.takePayload_write (tag table key item : Byte) (fields : List Byte) :
    State.takePayload tag (writePayload table key item fields) =
      State.manage tag (carryOut (.write table key item fields)) := by
  funext s
  rw [State.takePayload, Request.ofPayload_write]

/-- A WRITE of a listed table is that table's WRITE. -/
theorem State.requestFrame_write {t : Table} {table : Byte} (ht : Table.ofNat? table.toNat = some t)
    (tag key item : Byte) (fields : List Byte) (s : State) :
    s.requestFrame tag (writeTable t key item fields) =
      s.goodFrame (State.takePayload tag (writePayload table key item fields)) := by
  have hcarry : carryOut (.write table key item fields) = writeTable t key item fields := by
    funext u
    simp only [carryOut, ht]
  rw [State.takePayload_write, hcarry]
  rfl

/-- Every request row is a good frame of its tag and payload (R13, R157). -/
theorem exec_request {c : Instr} {tag : Byte} {payload : List Byte} (h : c.request = some (tag, payload)) (s : State) :
    exec c s = .next (s.goodFrame (State.takePayload tag payload)) := by
  cases c <;> cases h
  case writeDevice key item fields =>
    exact congrArg Host.Outcome.next (State.requestFrame_write (t := .device) rfl tag key item fields s)
  case writeBranch key item fields =>
    exact congrArg Host.Outcome.next (State.requestFrame_write (t := .branch) rfl tag key item fields s)
  case writeNode key item fields =>
    exact congrArg Host.Outcome.next (State.requestFrame_write (t := .node) rfl tag key item fields s)
  case writeSchedEntry key item fields =>
    exact congrArg Host.Outcome.next (State.requestFrame_write (t := .sched) rfl tag key item fields s)
  case writeSchedHeader key fields =>
    exact congrArg Host.Outcome.next (State.requestFrame_write (t := .sched) rfl tag key headerItem fields s)
  case writeReadOnlyTable table key item fields =>
    have ht : Table.ofNat? table.code.toNat = some (readOnlyTable table) := by cases table <;> rfl
    exact congrArg Host.Outcome.next (State.requestFrame_write ht tag key item fields s)
  all_goals rfl

/-! ### What a request can change -/

/-- What a request that is carried out can make of the part (R160 to R172); `was` is the part before. -/
inductive Carried : State → State → Prop
  | unchanged (s : State) : Carried s s
  | device (s : State) (w : Walk) (d : DeviceWrite) (h : w.gather DeviceWrite.empty DeviceWrite.add = some d) :
    Carried s (s.applyDevice d)
  | branch (s : State) (b : Branch) (w : Walk) (d : BranchWrite)
    (h : w.gather BranchWrite.empty BranchWrite.add = some d) : Carried s (s.applyBranch b d)
  | updated (s : State) (r : NodeRecord) (hr : s.node? r.address = some r) (w : Walk) (d : NodeWrite)
    (h : w.gather NodeWrite.empty NodeWrite.add = some d) : Carried s (s.updateRecord r d)
  | created (s : State) (a : Nat) (low : 1 ≤ a) (high : a ≤ 239) (free : s.node? a = none)
    (room : s.nodes.length < maxRecords) (w : Walk) (d : NodeWrite)
    (h : w.gather NodeWrite.empty NodeWrite.add = some d) :
    Carried s { s with nodes := insertNode (d.create a) s.nodes }
  | header (s : State) (b : Branch) (w : Walk) (d : HeaderWrite)
    (h : w.gather HeaderWrite.empty HeaderWrite.add = some d) :
    Carried s (s.onBr b fun B => B.onStandby fun k => k.setHeader d)
  | entry (s : State) (b : Branch) (i : Nat) (w : EntryWrite) (e : SlotEntry) (h : w.entry = some e) :
    Carried s (s.onBr b fun B => B.onStandby fun k => k.setEntry i e)
  | deleted (s : State) (a : Nat) : Carried s (State.purgeAll { s with nodes := removeNode a s.nodes } a)
  | healthReset (s : State) (a : Nat) : Carried s (s.onNode a NodeRecord.healthReset)
  | purged (s : State) (a : Nat) : Carried s (s.purgeAll a)
  | swapAsked (s : State) (b : Branch) (h : (s.br b).current = .scheduled) :
    Carried s (s.onBr b fun B => { B with swapPending := true })
  | swapped (s : State) (b : Branch) : Carried s (s.takeSwap b)
  | mode (s : State) (b : Branch) (m : Mode) : Carried s (s.requestMode b m)
  | flags (s : State) (g : Group) (set : Byte) : Carried s { s with eu := s.eu.onGroup g (·.clear set) }
  | counters (s : State) (g : Group) : Carried s (s.clearGroup g)

theorem carried_onRecord {s : State} {a : Byte} {act : State → State} (h : Carried s (act s)) :
    Carried s (onRecord a act s).1 := by
  rcases onRecord_cases a act s with ⟨-, e⟩ | ⟨-, -, -, e⟩ | ⟨-, -, -, -, e⟩ <;> rw [e]
  · exact .unchanged s
  · exact .unchanged s
  · exact h

theorem carried_writeDevice (s : State) (key item : Byte) (w : Walk) : Carried s (writeDevice key item w s).1 := by
  unfold writeDevice
  split
  · exact .unchanged s
  · split
    · exact .unchanged s
    · exact .device s w _ ‹_›

theorem carried_writeBranch (s : State) (key item : Byte) (w : Walk) : Carried s (writeBranch key item w s).1 := by
  unfold writeBranch
  split
  · exact .unchanged s
  · split
    · exact .unchanged s
    · split
      · exact .unchanged s
      · exact .branch s _ w _ ‹_›

theorem carried_writeNode (s : State) (key item : Byte) (w : Walk) : Carried s (writeNode key item w s).1 := by
  unfold writeNode
  split
  · exact .unchanged s
  · rename_i hkey
    split
    · exact .unchanged s
    · rename_i d hd
      split
      · rename_i r hr
        exact .updated s r (by rwa [State.address_of_node? hr]) w d hd
      · rename_i hnone
        split
        · exact .unchanged s
        · exact .created s key.toNat (by omega) (by omega) hnone (by omega) w d hd

theorem carried_writeSched (s : State) (key item : Byte) (w : Walk) : Carried s (writeSched key item w s).1 := by
  unfold writeSched
  split
  · exact .unchanged s
  · split
    · exact .unchanged s
    · split
      · split
        · exact .unchanged s
        · exact .header s _ w _ ‹_›
      · split
        · exact .unchanged s
        · split
          · exact .unchanged s
          · rename_i e he
            obtain ⟨d, -, hd⟩ := Option.bind_eq_some_iff.1 he
            exact .entry s _ _ d e hd

theorem carried_writeTable (s : State) (t : Table) (key item : Byte) (fields : List Byte) :
    Carried s (writeTable t key item fields s).1 := by
  unfold writeTable
  split
  · exact .unchanged s
  · split
    · exact .unchanged s
    · split
      · exact carried_writeDevice ..
      · exact carried_writeBranch ..
      · exact carried_writeNode ..
      · exact carried_writeSched ..
      all_goals exact .unchanged s

theorem carried_swap (s : State) (branch : Byte) : Carried s (requestSwap branch s).1 := by
  unfold requestSwap
  split
  · exact .unchanged s
  · split
    · exact .unchanged s
    · split
      · exact .swapAsked s _ ‹_›
      · exact .swapped s _
      · exact .swapped s _

theorem carried_setMode (s : State) (branch mode : Byte) : Carried s (requestSetMode branch mode s).1 := by
  unfold requestSetMode
  split
  · exact .unchanged s
  · split
    · exact .unchanged s
    · exact .mode s _ _

theorem carried_clearFlags (s : State) (group set : Byte) : Carried s (requestClearFlags group set s).1 := by
  unfold requestClearFlags
  split
  · exact .unchanged s
  · split
    · exact .unchanged s
    · exact .flags s _ _

theorem carried_clearCounters (s : State) (group : Byte) : Carried s (requestClearCounters group s).1 := by
  unfold requestClearCounters
  split
  · exact .unchanged s
  · exact .counters s _

/-- Every request does one of the things `Carried` lists. -/
theorem carried_carryOut (s : State) (r : Request) : Carried s (carryOut r s).1 := by
  cases r with
  | read table key item selector =>
    rw [carryOut]
    split <;> exact .unchanged s
  | write table key item fields =>
    rw [carryOut]
    split
    · split <;> exact .unchanged s
    · exact carried_writeTable ..
  | deleteNode a => exact carried_onRecord (.deleted s a.toNat)
  | resetHealth a => exact carried_onRecord (.healthReset s a.toNat)
  | purge a => exact carried_onRecord (.purged s a.toNat)
  | swap branch => exact carried_swap s branch
  | setMode branch mode => exact carried_setMode s branch mode
  | clearFlags group set => exact carried_clearFlags s group set
  | clearCounters group => exact carried_clearCounters s group
  | restart => exact .unchanged s
  | malformed => exact .unchanged s

end Sys2Proof.Machine
end

section
/-! PROOFS. Work of a branch as a row of small changes: `Move` lists them once, and every operation of the engines and
supervisors is a row of moves of its branch. What every move keeps, every operation keeps. -/
namespace Sys2Proof.Machine

/-- A slot begun afresh holds no command and no reply (R65, R68, R82, R83). -/
def SlotWork.Fresh (work : SlotWork) : Prop := ∀ w, work = .poll w → w.frame = .poll ∧ w.reply = none

/-- One of the changes that work of branch `b` is made of. `R` holds of the bytes of a reply that is used; `idle` says
that a slot or transaction begins only where none is in progress. -/
inductive Move (b : Branch) (R : List Byte → Prop) (idle : Prop) : State → State → Prop
  /-- Anything of the branch but its queue, its slot and its line. -/
  | tidy (s : State) (f : BranchState → BranchState) (queue : (f (s.br b)).queue = (s.br b).queue)
    (slot : (f (s.br b)).slot = (s.br b).slot) (line : (f (s.br b)).line = (s.br b).line) : Move b R idle s (s.onBr b f)
  /-- Flags, pending marks, last-node bytes and the dropped reports. -/
  | events (s : State) (eu : EventUnit) (dropped : Half) : Move b R idle s { s with eu := eu, droppedReports := dropped }
  /-- A record changed, its address and last value kept. -/
  | record (s : State) (a : Nat) (f : NodeRecord → NodeRecord) (address : ∀ r, (f r).address = r.address)
    (last : ∀ r, (f r).lastValue = r.lastValue) : Move b R idle s (s.onNode a f)
  /-- A REPORT admitted below the ceiling, its bytes kept as the last value (R80, R124). -/
  | report (s : State) (a : Nat) (number : Half) (reply : List Byte) (bytes : R reply)
    (room : s.occupancy < reportCeiling) :
    Move b R idle s ((s.addEntry .report (reportPayload a b number reply)).onNode a
      fun q => { q with lastValue := some reply, pollsSince := 0 })
  /-- The poll slot or transaction in progress goes on with the same frame (R69, R72, R73). -/
  | goOn (s : State) (phase phase' : Phase) (rate : LineRate) (w w' : PollWork) (line : LineUnit)
    (work : (s.br b).pollWork = some (phase, w)) (frame : w'.frame = w.frame) (reply : w'.reply = w.reply)
    (sends : line = .quiet ∨ line = .hunting ∨ line = .sending w'.lineFrame) :
    Move b R idle s (s.onBr b fun B =>
      { B with slot := some { rate := rate, phase := phase', work := .poll w' }, line := line })
  /-- One more character heard (R15). -/
  | hear (s : State) (taken : List Byte) (fits : (s.br b).line.Fits → (LineUnit.receiving taken).Fits) :
    Move b R idle s (s.onBr b fun B => { B with line := .receiving taken })
  /-- A queued command goes out (R68, R109). -/
  | launch (s : State) (before after : List Command) (c : Command) (toggle : Bool) (rate : LineRate) (w : PollWork)
    (queue : (s.br b).queue = before ++ c :: after) (free : idle → (s.br b).slot = none)
    (frame : w.frame = .cmd toggle { tag := c.tag, node := c.node, payload := c.payload }) (reply : w.reply = none) :
    Move b R idle s (s.onBr b fun B =>
      { B with queue := before ++ after, slot := some { rate := rate, phase := .sending, work := .poll w }
               line := .sending w.lineFrame })
  /-- A slot with no command starts (R68, R82, R83). -/
  | start (s : State) (slot : SlotRecord) (line : LineUnit) (free : idle → (s.br b).slot = none)
    (fresh : slot.work.Fresh) (fits : (s.br b).line.Fits → line.Fits) :
    Move b R idle s (s.onBr b fun B => { B with slot := some slot, line := line })
  /-- Work that holds no command ends (R84). -/
  | clear (s : State) (none : (s.br b).inFlight = none) :
    Move b R idle s (s.onBr b fun B => { B with slot := .none, line := .quiet })
  /-- The command in flight ends with its RESULT (R76, R85). -/
  | settle (s : State) (c : InFlight) (status : ResultStatus) (reply : List Byte) (flight : (s.br b).inFlight = some c)
    (bytes : reply = [] ∨ R reply) :
    Move b R idle s ((s.onBr b fun B => { B with slot := .none, line := .quiet }).convert c.tag c.node status reply)
  /-- Queued commands leave with a RESULT each; those that stay are as they were, or a cycle older and not spent (R57,
  R97). -/
  | cull (s : State) (status : ResultStatus) (kept gone : List Command)
    (count : kept.length + gone.length = (s.br b).queue.length)
    (same : ∀ c ∈ kept, c ∈ (s.br b).queue ∨ ∃ d ∈ (s.br b).queue, c = d.aged ∧ c.spent = false) :
    Move b R idle s ((s.onBr b fun B => { B with queue := kept }).convertAll status gone)

/-- Any number of moves of branch `b`. -/
abbrev Moves (b : Branch) (R : List Byte → Prop) (idle : Prop) : State → State → Prop :=
  Relation.ReflTransGen (Move b R idle)

section
variable {b : Branch} {R : List Byte → Prop} {idle : Prop} {s t u : State}

theorem Move.moves (h : Move b R idle s t) : Moves b R idle s t := .single h

theorem moves_ite {p : Prop} [Decidable p] (h : p → Moves b R idle s t) (k : ¬p → Moves b R idle s u) :
    Moves b R idle s (if p then t else u) := by
  split
  · exact h ‹_›
  · exact k ‹_›

/-- What every move keeps, a row of moves keeps. -/
theorem Moves.keeps {P : State → Prop} (step : ∀ s t, Move b R idle s t → P s → P t) (h : Moves b R idle s t)
    (hs : P s) : P t := by
  induction h with
  | refl => exact hs
  | tail _ last ih => exact step _ _ last ih

/-! ### Small changes -/

theorem moves_tidy (f : BranchState → BranchState) (queue : (f (s.br b)).queue = (s.br b).queue)
    (slot : (f (s.br b)).slot = (s.br b).slot) (line : (f (s.br b)).line = (s.br b).line) :
    Moves b R idle s (s.onBr b f) := (Move.tidy s f queue slot line).moves

theorem moves_count (f : BranchCounters → BranchCounters) : Moves b R idle s (s.count b f) := moves_tidy _ rfl rfl rfl

theorem moves_onCycle (f : Cycle → Cycle) : Moves b R idle s (s.onCycle b f) := moves_tidy _ rfl rfl rfl

theorem moves_onSup (f : Supervisor → Supervisor) : Moves b R idle s (s.onSup b f) := moves_tidy _ rfl rfl rfl

theorem moves_signal (c : Branch) (f : BranchFlag) : Moves b R idle s (s.signal c f) :=
  (Move.events s _ s.droppedReports).moves

theorem moves_signalNode (c : Branch) (f : BranchFlag) (a : Nat) : Moves b R idle s (s.signalNode c f a) :=
  (Move.events s _ s.droppedReports).moves

theorem moves_takeSwap : Moves b R idle s (s.takeSwap b) := (moves_tidy _ rfl rfl rfl).trans (moves_signal _ _)

theorem moves_takePendingSwap : Moves b R idle s (s.takePendingSwap b) :=
  moves_ite (fun _ => moves_takeSwap) fun _ => .refl

/-! ### The queue -/

theorem length_filter_add_length_filter_not (p : Command → Bool) (l : List Command) :
    (l.filter fun c => !p c).length + (l.filter p).length = l.length := by
  rw [Nat.add_comm, ← List.length_eq_length_filter_add]

theorem moves_flushQueue (status : ResultStatus) : Moves b R idle s (s.flushQueue b status) :=
  (Move.cull s status [] _ (Nat.zero_add _) (fun _ h => nomatch h)).moves

theorem moves_purgeQueue (a : Nat) : Moves b R idle s (s.purgeQueue a b) :=
  (Move.cull s .purged _ _ (length_filter_add_length_filter_not (fun c => c.node == a) _)
    fun _ h => .inl (List.mem_of_mem_filter h)).moves

theorem expireAll_eq_signal (s : State) (b : Branch) (l : List Command) :
    s.expireAll b l = s.convertAll .expired l ∨ s.expireAll b l = (s.convertAll .expired l).signal b .commandExpired := by
  unfold State.expireAll
  split
  · rename_i h
    rw [List.isEmpty_iff.1 h]
    exact .inl rfl
  · exact .inr rfl

/-- Commands that leave with EXPIRED, and the flag that says so (R57). -/
theorem moves_cull_expireAll (kept gone : List Command)
    (count : kept.length + gone.length = (s.br b).queue.length)
    (same : ∀ c ∈ kept, c ∈ (s.br b).queue ∨ ∃ d ∈ (s.br b).queue, c = d.aged ∧ c.spent = false) :
    Moves b R idle s ((s.onBr b fun B => { B with queue := kept }).expireAll b gone) := by
  have leave := (Move.cull (R := R) (idle := idle) s .expired kept gone count same).moves
  rcases expireAll_eq_signal (s.onBr b fun B => { B with queue := kept }) b gone with h | h <;> rw [h]
  · exact leave
  · exact leave.trans (moves_signal _ _)

theorem moves_ageQueue : Moves b R idle s (s.ageQueue b) := by
  refine moves_cull_expireAll _ _ ?_ fun c hc => ?_
  · rw [length_filter_add_length_filter_not, List.length_map]
  · obtain ⟨hmem, hspent⟩ := List.mem_filter.1 hc
    obtain ⟨d, hd, rfl⟩ := List.mem_map.1 hmem
    exact .inr ⟨d, hd, rfl, by simpa using hspent⟩

theorem moves_expireDue : Moves b R idle s (s.expireDue b) :=
  moves_cull_expireAll _ _ (length_filter_add_length_filter_not (fun c => c.aged.spent) _)
    fun _ h => .inl (List.mem_of_mem_filter h)

/-! ### Slots -/

theorem moves_skipSlot : Moves b R idle s (s.skipSlot b) := (moves_count _).trans (moves_onCycle _)

theorem takeFirst_some {node : Nat} {l rest : List Command} {c : Command} (h : takeFirst node l = some (c, rest)) :
    ∃ before after, l = before ++ c :: after ∧ rest = before ++ after ∧ c.node = node ∧ ∀ d ∈ before, d.node ≠ node := by
  induction l generalizing rest with
  | nil => cases h
  | cons d l ih =>
    unfold takeFirst at h
    split at h
    · cases h
      exact ⟨[], l, rfl, rfl, ‹_›, fun _ hd => nomatch hd⟩
    · rename_i hd
      obtain ⟨⟨c', rest'⟩, hrest, heq⟩ := Option.map_eq_some_iff.1 h
      cases heq
      obtain ⟨before, after, rfl, rfl, hnode, hfirst⟩ := ih hrest
      refine ⟨d :: before, after, rfl, rfl, hnode, fun e he => ?_⟩
      rcases List.mem_cons.1 he with rfl | he
      · exact hd
      · exact hfirst e he

/-- A command taken from the queue and launched: the record's toggle flips, and the command goes out (R34, R68). -/
theorem moves_launch (before after : List Command) (c : Command) (r : NodeRecord) (window retries : Nat)
    (queue : (s.br b).queue = before ++ c :: after) (free : idle → (s.br b).slot = none) :
    Moves b R idle s
      ((s.onBr b fun B => { B with queue := before ++ after }).launch b r c window retries) := by
  let t := s.onNode r.address fun q => { q with toggle := !r.toggle }
  let w : PollWork :=
    { node := r.address, window := window, retriesLeft := retries
      frame := .cmd (!r.toggle) { tag := c.tag, node := c.node, payload := c.payload }
      failure := none, reply := none, quietFrom := .handOver }
  have heq : (s.onBr b fun B => { B with queue := before ++ after }).launch b r c window retries =
      t.onBr b fun B => { B with
        queue := before ++ after, slot := some { rate := (s.br b).rate, phase := .sending, work := .poll w }
        line := .sending w.lineFrame } := by
    have hrate : ((s.onBr b fun B => { B with queue := before ++ after }).br b).rate = (s.br b).rate := by simp
    rw [State.launch, hrate]
    exact State.onBr_onBr t b (fun B => { B with queue := before ++ after }) fun B =>
      { B with
        slot := some { rate := (s.br b).rate, phase := .sending, work := .poll w }, line := .sending w.lineFrame }
  rw [heq]
  exact (Move.record s r.address (fun q => { q with toggle := !r.toggle }) (fun _ => rfl) fun _ => rfl).moves.trans
    (Move.launch t before after c (!r.toggle) (s.br b).rate w queue free rfl rfl).moves

/-- A first attempt without a command (R68). -/
theorem moves_poll (rate : LineRate) (w : PollWork) (frame : w.frame = .poll) (reply : w.reply = none)
    (free : idle → (s.br b).slot = none) : Moves b R idle s (s.beginAttempt b rate w) := by
  refine (Move.start s { rate := rate, phase := .sending, work := .poll w } (.sending w.lineFrame) free ?_ ?_).moves
  · rintro _ ⟨⟩
    exact ⟨frame, reply⟩
  · intro _
    rw [PollWork.lineFrame, frame]
    exact Nat.zero_le _

theorem moves_chooseFrame (r : NodeRecord) (window retries : Nat) (free : idle → (s.br b).slot = none) :
    Moves b R idle s (s.chooseFrame b r window retries) := by
  unfold State.chooseFrame
  dsimp only
  refine (moves_count fun c => { c with slotsRun := bump c.slotsRun }).trans ?_
  split
  · rename_i c rest htake
    obtain ⟨before, after, hqueue, rfl, -, -⟩ := takeFirst_some htake
    exact moves_launch before after c r window retries hqueue (by simpa using free)
  · exact moves_poll _ _ rfl rfl (by simpa using free)

theorem moves_lookup (node window retries : Nat) (free : idle → (s.br b).slot = none) :
    Moves b R idle s (s.lookup b node window retries) := by
  have probe : ∀ n, Moves b R idle s (s.onNode node fun q => { q with countdown := n }) := fun n =>
    (Move.record s node (fun q => { q with countdown := n }) (fun _ => rfl) fun _ => rfl).moves
  unfold State.lookup
  split
  · exact moves_skipSlot
  · rename_i r _
    refine moves_ite (fun _ => moves_skipSlot) fun _ => ?_
    split
    · exact moves_skipSlot
    · exact moves_chooseFrame _ _ _ free
    · exact moves_chooseFrame _ _ _ free
    · exact moves_ite (fun _ => (probe (r.countdown - 1)).trans moves_skipSlot)
        fun _ => (probe r.divisor).trans (moves_chooseFrame _ _ _ free)

theorem moves_startSlot (free : idle → (s.br b).slot = none) : Moves b R idle s (s.startSlot b) := by
  unfold State.startSlot
  dsimp only
  split
  · exact moves_lookup _ _ _ free
  · refine (moves_count _).trans (Move.start _ { rate := _, phase := .sending, work := .sync } _ (by simpa using free)
      (fun _ h => nomatch h) fun _ => ?_).moves
    show (3 : Nat) ≤ 24
    decide
  · exact (moves_count _).trans (Move.start _ { rate := _, phase := .holding, work := .gap _ } _ (by simpa using free)
      (fun _ h => nomatch h) id).moves

theorem moves_runSlots (n : Nat) (free : idle → (s.br b).slot = none) : Moves b R idle s (State.runSlots b n s) := by
  induction n generalizing s with
  | zero => exact .refl
  | succ n ih =>
    refine moves_ite (fun _ => moves_startSlot free) fun h => (moves_startSlot free).trans (ih fun _ => ?_)
    simpa using h

theorem moves_runCycle (free : idle → (s.br b).slot = none) : Moves b R idle s (s.runCycle b) := moves_runSlots _ free

/-! ### What leaves the slot as it is -/

theorem State.takePendingSwap_slot (s : State) (b : Branch) : ((s.takePendingSwap b).br b).slot = (s.br b).slot := by
  unfold State.takePendingSwap State.takeSwap
  split <;> simp

theorem State.ageQueue_slot (s : State) (b : Branch) : ((s.ageQueue b).br b).slot = (s.br b).slot := by
  simp [State.ageQueue, State.expireAll_br]

/-! ### Cycles -/

theorem moves_openCycle (free : idle → (s.br b).slot = none) : Moves b R idle s (s.openCycle b) := by
  refine moves_takePendingSwap.trans <| (moves_onCycle _).trans <| (moves_count _).trans <|
    moves_ageQueue.trans <| (moves_onCycle _).trans <| moves_runCycle fun i => ?_
  simpa [State.ageQueue_slot, State.takePendingSwap_slot] using free i

theorem moves_wait : Moves b R idle s (s.wait b) := moves_onCycle _

theorem moves_completeCycle (free : idle → (s.br b).slot = none) : Moves b R idle s (s.completeCycle b) :=
  moves_ite
    (fun _ => (moves_onCycle _).trans <| (moves_signal _ _).trans <| (moves_count _).trans <|
      (moves_openCycle (by simpa using free)).trans <| moves_ite (fun _ => .refl) fun _ => moves_wait)
    fun _ => moves_wait

theorem moves_cycleStart (free : idle → (s.br b).slot = none) : Moves b R idle s (s.cycleStart b) :=
  (moves_openCycle free).trans <| moves_ite (fun _ => .refl) fun h => moves_completeCycle fun _ => by simpa using h

theorem moves_continueCycle (free : idle → (s.br b).slot = none) : Moves b R idle s (s.continueCycle b) :=
  (moves_runCycle free).trans <| moves_ite (fun _ => .refl) fun h => moves_completeCycle fun _ => by simpa using h

theorem moves_suspendedCycle : Moves b R idle s (s.suspendedCycle b) :=
  moves_takePendingSwap.trans <| (moves_onCycle _).trans <| (moves_count _).trans moves_wait

theorem moves_startTimer : Moves b R idle s (s.startTimer b) := moves_onCycle _

theorem moves_tickEngine (free : idle → (s.br b).cycle.phase = .waiting → (s.br b).slot = none) :
    Moves b R idle s (s.tickEngine b) := by
  unfold State.tickEngine
  split
  · exact .refl
  · rename_i h
    exact moves_ite (fun _ => moves_cycleStart fun i => free i h) fun _ => moves_suspendedCycle
  · exact moves_onCycle _

theorem moves_endCycling : Moves b R idle s (s.endCycling b) := (moves_onCycle _).trans moves_takePendingSwap

/-! ### Transactions -/

theorem moves_startTransaction (free : idle → (s.br b).slot = none) : Moves b R idle s (s.startTransaction b) := by
  unfold State.startTransaction
  split
  · exact .refl
  · rename_i c rest hqueue
    have refused : ∀ status, Moves b R idle s
        ((s.onBr b fun B => { B with queue := rest }).convert c.tag c.node status []) := fun status =>
      (Move.cull s status rest [c] (by simp [hqueue]) fun d hd => .inl (by simp [hqueue, hd])).moves
    dsimp only
    split
    · exact refused _
    · exact moves_ite (fun _ => refused _) fun _ => moves_ite (fun _ => refused _) fun _ =>
        moves_launch [] rest c _ _ _ hqueue free

theorem State.mayTransact_slot (h : s.mayTransact b = true) : (s.br b).slot = none := by
  simp only [State.mayTransact, Bool.and_eq_true] at h
  exact Option.isNone_iff_eq_none.1 h.1.2

theorem moves_runTransactions (n : Nat) : Moves b R idle s (State.runTransactions b n s) := by
  induction n generalizing s with
  | zero => exact .refl
  | succ n ih =>
    exact moves_ite (fun h => (moves_startTransaction fun _ => State.mayTransact_slot h).trans ih) fun _ => .refl

theorem moves_kick : Moves b R idle s (s.kick b) := moves_runTransactions _

/-! ### The supply and the modes -/

theorem moves_beginWork (free : idle → (s.br b).slot = none) : Moves b R idle s (s.beginWork b) := by
  unfold State.beginWork
  split
  · exact moves_startTimer.trans (moves_cycleStart (by simpa [State.startTimer] using free))
  · exact moves_kick
  · exact .refl

theorem moves_reachNormal (free : idle → (s.br b).slot = none) : Moves b R idle s (s.reachNormal b) := by
  have normal : Moves b R idle s (s.supplyNormal b) :=
    (moves_onSup _).trans (moves_ite (fun _ => moves_signal _ _) fun _ => .refl)
  rw [State.reachNormal_eq]
  refine normal.trans (moves_ite (fun _ => (moves_tidy _ rfl rfl rfl).trans (moves_beginWork fun i => ?_)) fun _ =>
    moves_kick)
  simpa [State.supplyNormal_br] using free i

theorem moves_awaitSupply (free : idle → (s.br b).slot = none) : Moves b R idle s (s.awaitSupply b) := by
  refine (moves_tidy (fun B => { B with supplyWait := true }) rfl rfl rfl).trans
    ((moves_onSup _).trans (moves_ite (fun _ => .refl) fun _ => moves_reachNormal ?_))
  simpa using free

theorem moves_goOff : Moves b R idle s (s.goOff b) :=
  (moves_flushQueue .branchOff).trans
    ((moves_tidy (fun B => { B with supplyWait := false }) rfl rfl rfl).trans
      (moves_onSup fun v => { v with state := .disabled, restore := none, qualify := none, faultMark := false }))

theorem moves_beginCycling (free : idle → (s.br b).slot = none) : Moves b R idle s (s.beginCycling b) :=
  moves_ite (fun _ => .refl) fun _ => moves_ite
    (fun _ => moves_startTimer.trans (moves_cycleStart (by simpa [State.startTimer] using free)))
    fun _ => moves_startTimer.trans moves_suspendedCycle

theorem moves_takeChange (free : idle → (s.br b).slot = none) : Moves b R idle s (s.takeChange b) := by
  have adopted : idle → ((s.adoptMode b).br b).slot = none := by simpa [State.adoptMode] using free
  refine (moves_tidy (fun B => { B with current := B.requested }) rfl rfl rfl).trans ?_
  rw [State.takeChange_eq]
  split
  · exact moves_endCycling.trans moves_kick
  · exact moves_endCycling.trans moves_goOff
  · exact moves_goOff
  · exact moves_beginCycling adopted
  · exact moves_awaitSupply adopted
  · exact moves_awaitSupply adopted
  all_goals exact .refl

theorem moves_requestMode (m : Mode) : Moves b R idle s (s.requestMode b m) :=
  (moves_tidy (fun B => { B with requested := m }) rfl rfl rfl).trans <|
    moves_ite (fun h => moves_takeChange fun _ => Option.isNone_iff_eq_none.1 h.2) fun _ => .refl

/-! ### The end of a slot or transaction -/

/-- The slot record empty and the line quiet (R84, R110). -/
def State.rest (s : State) (b : Branch) : State := s.onBr b fun B => { B with slot := none, line := .quiet }

/-- What follows the slot that has just ended (R84). -/
def State.afterSlot (s : State) (b : Branch) : State :=
  let t := s.onCycle b fun c => { c with index := c.index + 1 }
  if (t.br b).changePending then t.takeChange b else t.continueCycle b

/-- What follows the transaction that has just ended (R110). -/
def State.afterTransaction (s : State) (b : Branch) : State :=
  if (s.br b).changePending then s.takeChange b else s.kick b

/-- What follows the work that has just ended (R84, R110). -/
def State.afterWork (s : State) (b : Branch) : State :=
  if (s.br b).current = .onDemand then s.afterTransaction b else s.afterSlot b

@[simp] theorem State.rest_br (s : State) (b : Branch) :
    (s.rest b).br b = { s.br b with slot := none, line := .quiet } := by simp [State.rest]

theorem State.endSlot_eq (s : State) (b : Branch) : s.endSlot b = (s.rest b).afterSlot b := rfl

theorem State.endTransaction_eq (s : State) (b : Branch) : s.endTransaction b = (s.rest b).afterTransaction b := rfl

theorem State.endWork_eq (s : State) (b : Branch) : s.endWork b = (s.rest b).afterWork b := by
  simp only [State.endWork, State.afterWork, State.rest_br, State.endSlot_eq, State.endTransaction_eq]

theorem moves_afterSlot (free : idle → (s.br b).slot = none) : Moves b R idle s (s.afterSlot b) :=
  (moves_onCycle _).trans <| moves_ite (fun _ => moves_takeChange (by simpa using free))
    fun _ => moves_continueCycle (by simpa using free)

theorem moves_afterWork (free : idle → (s.br b).slot = none) : Moves b R idle s (s.afterWork b) :=
  moves_ite (fun _ => moves_ite (fun _ => moves_takeChange free) fun _ => moves_kick) fun _ => moves_afterSlot free

/-! ### The write-back -/

theorem moves_reportDecision (r : NodeRecord) (reply : List Byte) (bytes : R reply) :
    Moves b R idle s (s.reportDecision b r reply) := by
  have polled : ∀ u : State, Moves b R idle u
      (u.onNode r.address fun q => { q with pollsSince := bump255 q.pollsSince }) := fun u =>
    (Move.record u r.address (fun q => { q with pollsSince := bump255 q.pollsSince }) (fun _ => rfl) fun _ => rfl).moves
  unfold State.reportDecision
  refine moves_ite (fun _ => moves_ite (fun room => ?_) fun _ => ?_) fun _ => polled s
  · exact (Move.report s r.address (s.br b).cycle.number reply bytes room).moves
  · exact (Move.events s (s.signalDevice .reportDropped).eu (bump s.droppedReports)).moves.trans (polled _)

theorem moves_okOutcome (r : NodeRecord) : Moves b R idle s (s.okOutcome b r) :=
  (Move.record s r.address NodeRecord.afterOk (fun _ => rfl) fun _ => rfl).moves.trans
    (moves_ite (fun _ => moves_signalNode _ _ _) fun _ => .refl)

theorem NodeRecord.afterFailure_keeps (r : NodeRecord) :
    r.afterFailure.address = r.address ∧ r.afterFailure.lastValue = r.lastValue := by
  unfold NodeRecord.afterFailure
  dsimp only
  split
  · split <;> exact ⟨rfl, rfl⟩
  · split <;> exact ⟨rfl, rfl⟩
  · exact ⟨rfl, rfl⟩
  · exact ⟨rfl, rfl⟩

theorem moves_failedOutcome (r : NodeRecord) : Moves b R idle s (s.failedOutcome b r) :=
  (Move.record s r.address NodeRecord.afterFailure (fun q => q.afterFailure_keeps.1)
    fun q => q.afterFailure_keeps.2).moves.trans (moves_ite (fun _ => moves_signalNode _ _ _) fun _ => .refl)

theorem moves_applyOutcome (w : PollWork) (bytes : ∀ r, w.reply = some r → R r.payload) :
    Moves b R idle s (s.applyOutcome b w) := by
  unfold State.applyOutcome
  split
  · exact moves_count _
  · rename_i r _
    refine moves_ite (fun _ => moves_count _) fun _ => ?_
    split
    · rename_i reply hreply
      refine moves_ite (fun _ => ?_) fun _ => (moves_okOutcome r).trans ?_
      · exact (Move.record s r.address (fun q => { q with okReplies := bump q.okReplies })
          (fun _ => rfl) fun _ => rfl).moves
      · split
        · exact moves_reportDecision _ _ (bytes reply hreply)
        · exact .refl
    · refine moves_ite (fun _ => ?_) fun _ => moves_failedOutcome r
      exact (Move.record s r.address (fun q => { q with totalMisses := bump q.totalMisses })
        (fun _ => rfl) fun _ => rfl).moves

/-- A move of records, flags, counters and REPORTs leaves the branch but for its counters. -/
theorem State.applyOutcome_br (s : State) (b : Branch) (w : PollWork) :
    ∃ k, (s.applyOutcome b w).br b = { s.br b with counters := k } := by
  have report : ∀ (u : State) (r : NodeRecord) (v : List Byte), (u.reportDecision b r v).br b = u.br b := fun u r v => by
    unfold State.reportDecision
    split
    · split <;> rfl
    · rfl
  have ok : ∀ r, (s.okOutcome b r).br b = s.br b := fun r => by
    unfold State.okOutcome
    dsimp only
    split <;> rfl
  unfold State.applyOutcome
  split
  · exact ⟨_, State.count_br_same ..⟩
  · split
    · exact ⟨_, State.count_br_same ..⟩
    · refine ⟨(s.br b).counters, ?_⟩
      split
      · split
        · rfl
        · dsimp only
          split
          · rw [report, ok]
          · rw [ok]
      · split
        · rfl
        · unfold State.failedOutcome
          dsimp only
          split <;> rfl

/-- The RESULT and the count are the same before the work is cleared and after it. -/
theorem State.rest_writeBack (s : State) (b : Branch) (w : PollWork) :
    (s.writeBack b w).rest b = (((s.applyOutcome b w).rest b).issueResult w).countOutcome b w := by
  rw [State.writeBack]
  generalize s.applyOutcome b w = t
  have swap : ∀ (u : State) f, (u.count b f).rest b = (u.rest b).count b f := fun u f => by
    simp only [State.rest, State.count, State.onBr_onBr]
  unfold State.countOutcome State.issueResult
  cases w.reply with
  | none => cases w.frame <;> rfl
  | some reply => cases w.frame <;> exact swap _ _

theorem BranchState.pollWork_some {B : BranchState} {phase : Phase} {w : PollWork} (h : B.pollWork = some (phase, w)) :
    ∃ rate, B.slot = some { rate := rate, phase := phase, work := .poll w } := by
  unfold BranchState.pollWork at h
  split at h
  · rename_i rate _ _ hslot
    cases h
    exact ⟨rate, hslot⟩
  · cases h

theorem BranchState.pollWork_eq {B : BranchState} {rate : LineRate} {phase : Phase} {w : PollWork}
    (h : B.slot = some { rate := rate, phase := phase, work := .poll w }) : B.pollWork = some (phase, w) := by
  rw [BranchState.pollWork, h]

theorem BranchState.inFlight_poll {B : BranchState} {phase : Phase} {w : PollWork} (h : B.pollWork = some (phase, w))
    (frame : w.frame = .poll) : B.inFlight = none := by
  obtain ⟨rate, hslot⟩ := BranchState.pollWork_some h
  rw [BranchState.inFlight, hslot]
  simp only [frame]

theorem BranchState.inFlight_cmd {B : BranchState} {phase : Phase} {w : PollWork} {toggle : Bool} {c : InFlight}
    (h : B.pollWork = some (phase, w)) (frame : w.frame = .cmd toggle c) : B.inFlight = some c := by
  obtain ⟨rate, hslot⟩ := BranchState.pollWork_some h
  rw [BranchState.inFlight, hslot]
  simp only [frame]

theorem State.issueResult_br (s : State) (w : PollWork) (b : Branch) : (s.issueResult w).br b = s.br b := by
  unfold State.issueResult
  split <;> rfl

theorem State.countOutcome_br (s : State) (b : Branch) (w : PollWork) :
    ∃ k, (s.countOutcome b w).br b = { s.br b with counters := k } := by
  unfold State.countOutcome
  split
  · exact ⟨_, rfl⟩
  · exact ⟨_, State.count_br_same ..⟩
  · exact ⟨_, State.count_br_same ..⟩

/-- Once the work is written back and cleared, its branch is as it was but for the counters and the work (R75, R84). -/
theorem State.writeBack_rest_br (s : State) (b : Branch) (w : PollWork) :
    ∃ k, ((s.writeBack b w).rest b).br b = { s.br b with counters := k, slot := none, line := .quiet } := by
  obtain ⟨k, hk⟩ := s.applyOutcome_br b w
  obtain ⟨m, hm⟩ := (((s.applyOutcome b w).rest b).issueResult w).countOutcome_br b w
  refine ⟨m, ?_⟩
  rw [State.rest_writeBack, hm, State.issueResult_br, State.rest_br, hk]

theorem State.countFailure_pollWork {phase : Phase} {w : PollWork} (work : (s.br b).pollWork = some (phase, w))
    (cls : FailClass) : ((s.countFailure b cls).br b).pollWork = some (phase, w) := by
  rw [State.countFailure, State.count_br_same]
  exact work

section
variable {phase : Phase} {w w' : PollWork} (work : (s.br b).pollWork = some (phase, w)) (frame : w'.frame = w.frame)
include work frame

/-- The work in progress ends with the RESULT of its command, where it has one (R75, R76). -/
theorem moves_rest_issueResult (bytes : ∀ r, w'.reply = some r → R r.payload) :
    Moves b R idle s ((s.rest b).issueResult w') := by
  unfold State.issueResult
  split
  · rename_i hpoll
    exact (Move.clear s (BranchState.inFlight_poll work (frame.symm.trans hpoll))).moves
  · rename_i toggle c hcmd
    refine (Move.settle s c _ _ (BranchState.inFlight_cmd work (frame.symm.trans hcmd)) ?_).moves
    unfold PollWork.result
    split
    · exact .inr (bytes _ ‹_›)
    · exact .inl rfl

theorem moves_finishWork (bytes : ∀ r, w'.reply = some r → R r.payload) :
    Moves b R idle s (s.finishWork b w') := by
  have count : ∀ u : State, Moves b R idle u (u.countOutcome b w') := fun u => by
    unfold State.countOutcome
    split
    · exact .refl
    · exact moves_count _
    · exact moves_count _
  have hwork : ((s.applyOutcome b w').br b).pollWork = some (phase, w) := by
    obtain ⟨k, hk⟩ := s.applyOutcome_br b w'
    rw [hk]
    exact work
  have hrest : Moves b R idle s ((s.writeBack b w').rest b) := by
    rw [State.rest_writeBack]
    exact (moves_applyOutcome w' bytes).trans ((moves_rest_issueResult hwork frame bytes).trans (count _))
  rw [State.finishWork, State.endWork_eq]
  refine hrest.trans (moves_afterWork fun _ => ?_)
  rw [State.rest_br]

theorem moves_endAttempt (rate : LineRate) (reply : w'.reply = w.reply) (bytes : ∀ r, w'.reply = some r → R r.payload) :
    Moves b R idle s (s.endAttempt b rate w') := by
  unfold State.endAttempt
  split
  · exact moves_finishWork work frame bytes
  · rename_i n _
    refine (moves_count _).trans (Move.goOn _ phase .sending rate w { w' with retriesLeft := n } _ ?_ frame reply
      (.inr (.inr rfl))).moves
    rw [State.count_br_same]
    exact work

theorem moves_failAttempt (rate : LineRate) (cls : FailClass) (reply : w'.reply = w.reply)
    (bytes : ∀ r, w'.reply = some r → R r.payload) : Moves b R idle s (s.failAttempt b rate w' cls) :=
  (moves_count _).trans
    (moves_endAttempt (w' := { w' with failure := some cls }) (State.countFailure_pollWork work cls) frame rate
      reply bytes)

theorem moves_settleAttempt (rate : LineRate) (cls : FailClass) (start : QuietFrom) (reply : w'.reply = w.reply) :
    Moves b R idle s (s.settleAttempt b rate w' cls start) :=
  (moves_count _).trans
    (Move.goOn _ phase .settling rate w { w' with failure := some cls, quietFrom := start } .quiet
      (State.countFailure_pollWork work cls) frame reply (.inl rfl)).moves

end

/-! ### What a branch hears -/

theorem BranchState.listening_some {B : BranchState} {rate : LineRate} {w : PollWork}
    (h : B.listening = some (rate, w)) : B.slot = some { rate := rate, phase := .listening, work := .poll w } := by
  unfold BranchState.listening at h
  split at h
  · cases h; assumption
  · cases h; assumption
  · cases h

/-- The replies that the work in progress holds satisfy `R`. -/
def BranchState.ReplyIn (R : List Byte → Prop) (B : BranchState) : Prop :=
  ∀ phase w r, B.pollWork = some (phase, w) → w.reply = some r → R r.payload

section
variable (held : (s.br b).ReplyIn R)
include held

theorem moves_heardFrame (f : LineFrame) (bytes : R f.payload) : Moves b R idle s (s.heardFrame b f) := by
  unfold State.heardFrame
  split
  · exact .refl
  · rename_i rate w hlisten
    have work := BranchState.pollWork_eq (BranchState.listening_some hlisten)
    split
    · refine moves_finishWork work rfl fun r hr => ?_
      cases hr
      exact bytes
    · exact moves_failAttempt work rfl rate _ rfl fun r => held _ _ r work

theorem moves_heardGap (a : Byte) : Moves b R idle s (s.heardGap b a) := by
  unfold State.heardGap
  split
  · exact .refl
  · rename_i rate w hlisten
    have work := BranchState.pollWork_eq (BranchState.listening_some hlisten)
    exact moves_failAttempt work rfl rate _ rfl fun r => held _ _ r work

end

/-- What a QUIET line unit hears changes a slot that settles alone (R72). -/
theorem State.heardQuiet_eq (s : State) (b : Branch) (start : QuietFrom) :
    (∃ rate w, (s.br b).slot = some { rate := rate, phase := .settling, work := .poll w } ∧
        s.heardQuiet b start = s.onBr b fun B =>
          { B with slot := some { rate := rate, phase := .settling, work := .poll { w with quietFrom := start } } }) ∨
      ((∀ rate w, (s.br b).slot ≠ some { rate := rate, phase := .settling, work := .poll w }) ∧
        s.heardQuiet b start = s) := by
  unfold State.heardQuiet
  by_cases h : ∃ rate w, (s.br b).slot = some { rate := rate, phase := .settling, work := .poll w }
  · obtain ⟨rate, w, hslot⟩ := h
    refine .inl ⟨rate, w, hslot, ?_⟩
    simp only [State.onBr, hslot]
  · have hslot : ∀ rate w, (s.br b).slot ≠ some { rate := rate, phase := .settling, work := .poll w } :=
      fun rate w e => h ⟨rate, w, e⟩
    refine .inr ⟨hslot, ?_⟩
    simp only [State.onBr]
    exact congrArg (fun p => { s with branches := p }) (Per.set_get s.branches b)

theorem moves_heardQuiet (start : QuietFrom) (quiet : (s.br b).line = .quiet) :
    Moves b R idle s (s.heardQuiet b start) := by
  rcases s.heardQuiet_eq b start with ⟨rate, w, hslot, heq⟩ | ⟨-, heq⟩ <;> rw [heq]
  · have hline : (s.onBr b fun B =>
        { B with slot := some { rate := rate, phase := .settling, work := .poll { w with quietFrom := start } } }) =
        s.onBr b fun B => { B with
          slot := some { rate := rate, phase := .settling, work := .poll { w with quietFrom := start } }
          line := .quiet } := by
      simp only [State.onBr, ← quiet]
    rw [hline]
    exact (Move.goOn s .settling .settling rate w { w with quietFrom := start } .quiet (BranchState.pollWork_eq hslot)
      rfl rfl (.inl rfl)).moves

theorem moves_heardFragment (a : Byte) (cause : FragmentCause) : Moves b R idle s (s.heardFragment b a cause) := by
  unfold State.heardFragment
  split
  · split
    · exact moves_heardQuiet _ ‹_›
    · exact .refl
  · rename_i rate w hlisten
    exact moves_settleAttempt (BranchState.pollWork_eq (BranchState.listening_some hlisten)) rfl rate _ _ rfl

/-! ### Faults and the comparator -/

theorem moves_abandon : Moves b R idle s (s.abandon b) := by
  unfold State.abandon
  dsimp only
  split
  · exact (Move.clear s ‹_›).moves
  · exact (Move.settle s _ .lineFault [] ‹_› (.inl rfl)).moves

theorem State.abandon_slot (s : State) (b : Branch) : ((s.abandon b).br b).slot = none := by
  have hrest : ((s.rest b).br b).slot = none := by rw [State.rest_br]
  unfold State.abandon
  dsimp only
  split
  · exact hrest
  · exact hrest

theorem State.flushQueue_br (s : State) (b : Branch) (status : ResultStatus) :
    (s.flushQueue b status).br b = { s.br b with queue := [] } := by
  rw [State.flushQueue_eq]
  exact Per.get_set_same ..

theorem moves_enterFault : Moves b R idle s (s.enterFault b) := by
  refine (moves_onSup _).trans <| (moves_signal _ _).trans <| moves_abandon.trans <| (moves_flushQueue _).trans <|
    Relation.ReflTransGen.trans (moves_onCycle _) <| moves_ite (fun _ => moves_takeChange fun _ => ?_) fun _ => .refl
  simp [State.flushQueue_br, State.abandon_slot]

end
end Sys2Proof.Machine
end

section
/-! PROOFS. The rows of a branch and the changes of a request: each is a row of moves of its branch, and what is kept by
what the part can do is kept by every step. -/
namespace Sys2Proof.Machine

section
variable {b : Branch} {R : List Byte → Prop} {idle : Prop} {s t : State}

/-! ### The supply -/

theorem moves_takeRise : Moves b R idle s (s.takeRise b) := by
  unfold State.takeRise
  split
  · exact moves_onSup _
  · exact (moves_onSup _).trans (moves_count _)
  · exact moves_onSup _
  all_goals exact .refl

theorem moves_takeFall : Moves b R idle s (s.takeFall b) := by
  unfold State.takeFall
  split
  · exact moves_onSup _
  · exact moves_onSup _
  all_goals exact .refl

theorem moves_compare (was : Bool) : Moves b R idle s (s.compare b was) := by
  unfold State.compare
  dsimp only
  refine moves_ite (fun _ => ?_) fun _ => .refl
  split
  · exact moves_takeRise
  · exact moves_takeFall
  all_goals exact .refl

theorem moves_disableSupervision (free : idle → (s.br b).sup.state = .restorePending ∨ (s.br b).sup.state = .fault →
    (s.br b).slot = none) : Moves b R idle s (s.disableSupervision b) := by
  unfold State.disableSupervision
  split
  · rename_i h; exact moves_reachNormal fun i => free i (.inl h)
  · rename_i h; exact moves_reachNormal fun i => free i (.inr h)
  · exact moves_onSup _
  all_goals exact .refl

theorem moves_enableSupervision : Moves b R idle s (s.enableSupervision b) :=
  moves_ite (fun _ => moves_onSup _) fun _ => .refl

/-- The settings written, and their effect on the supervisor (R189). -/
theorem moves_applyBranch (w : BranchWrite) (free : idle →
    (s.br b).sup.state = .restorePending ∨ (s.br b).sup.state = .fault → (s.br b).slot = none) :
    Moves b R idle s (s.applyBranch b w) := by
  unfold State.applyBranch
  dsimp only
  refine (moves_tidy (fun B => B.settings w) rfl rfl rfl).trans ?_
  split
  · refine moves_disableSupervision ?_
    simpa [BranchState.settings] using free
  · exact moves_enableSupervision
  · exact moves_compare _
  · exact .refl

/-! ### The rows of a branch -/

/-- A SUPPLY_RISE or SUPPLY_FALL finds the supply as the row says; every other row finds the part as it is (log 7). -/
def Supplied (b : Branch) (s v : State) : Prop := v = s ∨ ∃ x, v = s.onBr b fun B => { B with supply := x }

/-- `t` is `s` after a row of branch `b`: what its engine and supervisor do, and a choice of the Delivery Unit or none. -/
def Worked (b : Branch) (R : List Byte → Prop) (idle : Prop) (s t : State) : Prop :=
  ∃ v u, Supplied b s v ∧ (BranchStep b v u ∧ Moves b R idle v u) ∧ (t = u ∨ t = u.choice)

theorem worked_of (h : BranchStep b s t) (k : Moves b R idle s t) : Worked b R idle s t :=
  ⟨s, t, .inl rfl, ⟨h, k⟩, .inl rfl⟩

theorem worked_choice (h : BranchStep b s t) (k : Moves b R idle s t) : Worked b R idle s t.choice :=
  ⟨s, t, .inl rfl, ⟨h, k⟩, .inr rfl⟩

theorem worked_unchanged : Worked b R idle s s := worked_of .rfl .refl

/-- The reply bytes that a command brings to a branch satisfy `R`. -/
def BytesIn (R : List Byte → Prop) (s : State) : Instr → Prop
  | .branchReplyComplete _ f => R f.payload
  | .branchCharacter b _ v =>
    ∀ taken f, (s.br b).line = .receiving taken → takeData branchLenLimit taken v = .complete f → R f.payload
  | _ => True

/-- A character that leaves the frame unfinished leaves its beginning (R10, R16). -/
theorem partialFrame_of_more {limit : Nat} {taken more : List Byte} {v : Byte} (h : partialFrame limit taken)
    (hm : takeData limit taken v = .more more) : partialFrame limit more := by
  unfold takeData at hm
  split at hm
  · cases hm
  · rename_i hlen
    split at hm
    · cases hm
    · rename_i hnone
      cases hm
      refine ⟨by simp, ?_⟩
      rcases taken with _ | ⟨a, _ | ⟨k, _ | ⟨t, _ | ⟨len, rest⟩⟩⟩⟩
      · trivial
      · trivial
      · trivial
      · simp only [List.length_cons, List.length_nil, not_and, Nat.not_lt] at hlen
        exact ⟨hlen trivial, by simp only [List.cons_append, List.nil_append, List.length_cons, List.length_nil]; omega⟩
      · obtain ⟨-, hlimit, hshort⟩ := h
        refine ⟨hlimit, ?_⟩
        simp only [List.cons_append, List.length_cons, List.length_append, List.length_nil] at hshort ⊢
        by_contra hge
        have hdrop : ((rest ++ [v]).drop len.toNat).length = 2 := by
          rw [List.length_drop, List.length_append, List.length_singleton]
          omega
        obtain ⟨x, y, hxy⟩ := List.length_eq_two.1 hdrop
        simp [LineFrame.ofValues, hxy] at hnone

/-- The payload of a frame completed is as long as its LEN says, within the limit of the line (R8, R10, R16). -/
theorem payload_length_of_complete {limit : Nat} {taken : List Byte} {v : Byte} {f : LineFrame}
    (h : partialFrame limit taken) (hc : takeData limit taken v = .complete f) : f.payload.length ≤ limit := by
  unfold takeData at hc
  split at hc
  · cases hc
  · split at hc
    · rename_i hsome
      cases hc
      rcases taken with _ | ⟨a, _ | ⟨k, _ | ⟨t, _ | ⟨len, rest⟩⟩⟩⟩
      · simp [LineFrame.ofValues] at hsome
      · simp [LineFrame.ofValues] at hsome
      · simp [LineFrame.ofValues] at hsome
      · simp [LineFrame.ofValues] at hsome
      · have hlimit : len.toNat ≤ limit := h.2.1
        simp only [List.cons_append, LineFrame.ofValues] at hsome
        split at hsome
        · cases hsome
          exact (List.length_take_le _ _).trans hlimit
        · cases hsome
    · cases hc

section
variable {c : Instr} (free : idle → (s.br b).cycle.phase = .waiting ∨ (s.br b).sup.state = .restorePending →
  (s.br b).slot = none) (held : (s.br b).ReplyIn R)
include free held

/-- Every row of a branch is work of that branch. -/
theorem worked_exec (bytes : BytesIn R s c) (row : branchRow c = some b) (h : exec c s = .next t) :
    Worked b R idle s t := by
  cases c <;> cases row <;> cases h
  case cycleTick =>
    split
    · exact worked_unchanged
    · refine worked_choice (branchStep_startTimer.trans branchStep_tickEngine) (moves_startTimer.trans
        (moves_tickEngine ?_))
      simpa [State.startTimer] using fun i h => free i (.inl h)
  case commandExpiry => exact worked_choice branchStep_expireDue moves_expireDue
  case attemptFrameSent =>
    split
    · rename_i rate w hslot
      exact worked_of (branchStep_onBr _ ⟨rfl, rfl, rfl, rfl, rfl, rfl, rfl, rfl, rfl, rfl⟩)
        (Move.goOn s .sending .listening rate w w .hunting (BranchState.pollWork_eq hslot) rfl rfl (.inr (.inl rfl))).moves
    · exact worked_unchanged
  case nothingHeard =>
    split
    · rename_i rate w hslot _
      have work := BranchState.pollWork_eq hslot
      exact worked_choice (branchStep_failAttempt _ _ _)
        (moves_failAttempt work rfl rate _ rfl fun r => held _ _ r work)
    · exact worked_unchanged
  case branchReplyComplete f => exact worked_choice (branchStep_heardFrame f) (moves_heardFrame held f bytes)
  case branchFragment a cause => exact worked_of (branchStep_heardFragment a cause) (moves_heardFragment a cause)
  case branchGap a => exact worked_choice (branchStep_heardGap a) (moves_heardGap held a)
  case settlingEnd =>
    split
    · rename_i rate w hslot
      have work := BranchState.pollWork_eq hslot
      exact worked_choice (branchStep_endAttempt _ _) (moves_endAttempt work rfl rate rfl fun r => held _ _ r work)
    · exact worked_unchanged
  case syncSlotEnd =>
    split
    · rename_i hslot
      have flight : (s.br b).inFlight = none := by rw [BranchState.inFlight, hslot]
      exact worked_choice branchStep_endSlot ((Move.clear s flight).moves.trans (moves_afterSlot fun _ => by simp))
    · exact worked_unchanged
  case gapSlotEnd =>
    split
    · rename_i hslot
      have flight : (s.br b).inFlight = none := by rw [BranchState.inFlight, hslot]
      exact worked_choice branchStep_endSlot ((Move.clear s flight).moves.trans (moves_afterSlot fun _ => by simp))
    · exact worked_unchanged
  case supplyRise above =>
    exact ⟨_, _, .inr ⟨_, rfl⟩, ⟨branchStep_compare _, moves_compare _⟩, .inl rfl⟩
  case supplyFall above =>
    exact ⟨_, _, .inr ⟨_, rfl⟩, ⟨branchStep_compare _, moves_compare _⟩, .inl rfl⟩
  case qualifyTimerExpiry =>
    split
    · exact worked_choice branchStep_enterFault moves_enterFault
    · exact worked_unchanged
  case restoreTimerExpiry =>
    split
    · rename_i hstate _
      exact worked_choice branchStep_reachNormal (moves_reachNormal fun i => free i (.inr hstate))
    · exact worked_unchanged
  case branchCharacter marker v =>
    split
    · exact worked_unchanged
    · exact worked_of (branchStep_heardQuiet _) (moves_heardQuiet _ ‹_›)
    · split
      · exact worked_of (branchStep_onBr _ ⟨rfl, rfl, rfl, rfl, rfl, rfl, rfl, rfl, rfl, rfl⟩)
          (Move.hear s [v] fun _ => ⟨Nat.le_refl 1, trivial⟩).moves
      · exact worked_unchanged
    · rename_i taken hline
      split
      · exact worked_of (branchStep_heardFragment _ _) (moves_heardFragment _ _)
      · split
        · exact worked_of (branchStep_heardFragment _ _) (moves_heardFragment _ _)
        · rename_i f hf
          exact worked_choice (branchStep_heardFrame f) (moves_heardFrame held f (bytes taken f hline hf))
        · rename_i more hmore
          refine worked_of (branchStep_onBr _ ⟨rfl, rfl, rfl, rfl, rfl, rfl, rfl, rfl, rfl, rfl⟩)
            (Move.hear s more fun hfits => ?_).moves
          rw [hline] at hfits
          exact partialFrame_of_more hfits hmore

end
end

/-! ### What every step keeps -/

/-- `P` is kept by everything that a command of which `W` holds can make the part do. -/
structure Kept (W : State → Instr → Prop) (P : State → Prop) : Prop where
  reset   : ∀ s cause sa tr, P s → P (s.hardReset cause sa tr)
  hunt    : ∀ s rx, P s → P { s with receiver := .hunting, rx := rx }
  begin   : ∀ s v rx, P s → P { s with receiver := .receiving [v], rx := rx }
  append  : ∀ s taken v more, s.receiver = .receiving taken → takeData trunkLenLimit taken v = .more more → P s →
    P { s with receiver := .receiving more }
  choice  : ∀ s, P s → P s.choice
  recover : ∀ s, P s → P s.recover
  ack     : ∀ s next payload, s.du.trunk ≠ .down → P s → P (s.takeAck next payload)
  relay   : ∀ s node tag payload, P s → P (s.takeRelay node tag payload)
  manage  : ∀ s tag r, P s → P (State.manage tag (carryOut r) s)
  restart : ∀ s, P s → P s.warmRestart
  free    : ∀ s, P s → P { s with du := { s.du with transmitter := none } }
  expire  : ∀ s, s.du.timer.isSome = true → P s → P s.expire
  branch  : ∀ s t c b, W s c → branchRow c = some b → exec c s = .next t → P s → P t

section
variable {W : State → Instr → Prop} {P : State → Prop} {s t : State}

/-- The choice does not change the trunk state (R138). -/
theorem State.choice_trunk (s : State) : s.choice.du.trunk = s.du.trunk := by
  have first : ∀ {u v : State} {c}, u.firstTransmission c = some v → v.du.trunk = u.du.trunk := fun h => by
    obtain ⟨_, _, _, _, _, _, rfl⟩ := State.firstTransmission_some h
    rfl
  unfold State.choice
  split
  · rcases s.arbiter_cases with h | ⟨p, _, h⟩ | ⟨c, _, _, _, h⟩ | ⟨_, _, h⟩
    · rw [h]
    · rw [h, State.resend]
      split <;> rfl
    · exact first h
    · unfold State.sendAlert at h
      split at h
      · exact (first h).trans rfl
      · cases h
  · rfl

/-- After the arrival of a good frame the trunk is not DOWN (R150, R151). -/
theorem State.recover_trunk (s : State) : s.recover.du.trunk ≠ .down := by
  unfold State.recover
  split
  · rename_i h; rw [h]; decide
  · rename_i h; rw [h]; decide
  · dsimp only
    rw [State.choice_trunk]
    split <;> exact fun h => nomatch h

theorem Kept.goodFrame (k : Kept W P) (act : State → State) (h : ∀ u, u.du.trunk ≠ .down → P u → P (act u)) (hs : P s) :
    P (s.goodFrame act) :=
  k.choice _ (h _ (State.recover_trunk _) (k.recover _ (k.hunt s _ hs)))

theorem Kept.takePayload (k : Kept W P) (tag : Byte) (payload : List Byte) (hs : P s) :
    P (State.takePayload tag payload s) := by
  unfold State.takePayload
  split
  · exact k.restart s hs
  · exact k.manage s tag _ hs

theorem Kept.takeFrame (k : Kept W P) (f : LineFrame) (hs : P s) : P (s.takeFrame f) := by
  have hunting : ∀ rx, P { s with receiver := .hunting, rx := rx } := fun rx => k.hunt s rx hs
  unfold State.takeFrame
  dsimp only
  split
  · exact hunting _
  · split
    · exact hunting _
    · split
      · split
        · exact hunting s.rx
        · split
          · exact k.goodFrame _ (fun u _ => k.takePayload _ _) (hunting s.rx)
          · split
            · exact k.goodFrame _ (fun u => k.ack u _ _) (hunting s.rx)
            · exact hunting _
      · split
        · exact k.goodFrame _ (fun u _ => k.relay u _ _ _) (hunting s.rx)
        · exact hunting _

theorem Kept.receive (k : Kept W P) (event : RxEvent) (hs : P s) : P (s.receive event) := by
  unfold State.receive
  split
  · exact hs
  · exact hs
  · exact k.begin s _ s.rx hs
  · exact k.hunt s _ hs
  · exact k.begin s _ _ hs
  · rename_i hreceiver
    split
    · exact k.hunt s _ hs
    · exact k.takeFrame _ hs
    · rename_i hmore
      exact k.append s _ _ _ hreceiver hmore hs

theorem Kept.trunkRow (k : Kept W P) {c : Instr} (request : c.request = none) (row : branchRow c = none)
    (h : exec c s = .next t) (hs : P s) : P t := by
  cases c <;> cases request <;> cases row <;> cases h
  case powerOn sa tr => exact k.reset s _ sa tr hs
  case pinReset sa tr => exact k.reset s _ sa tr hs
  case trunkFragment event => exact k.receive event hs
  case trunkGap =>
    split
    · exact hs
    · exact k.hunt s _ hs
  case trunkFrameDiscard f => exact k.takeFrame f hs
  case ack next payload => exact k.goodFrame _ (fun u => k.ack u next payload) hs
  case relay a tag payload => exact k.goodFrame _ (fun u _ => k.relay u _ tag payload) hs
  case trunkFrameEnd =>
    split
    · exact hs
    · exact k.choice _ (k.free s hs)
  case retransmitTimerExpiry =>
    split
    · exact hs
    · rename_i h
      exact k.choice _ (k.expire s (by rw [h]; rfl) hs)
  case trunkCharacter marker v => exact k.receive _ hs

/-- What is kept by everything that a command can make the part do is kept by the command. -/
theorem Kept.exec (k : Kept W P) {c : Instr} (hc : W s c) (h : exec c s = .next t) (hs : P s) : P t := by
  rcases hrequest : c.request with _ | ⟨tag, payload⟩
  · rcases hrow : branchRow c with _ | b
    · exact k.trunkRow hrequest hrow h hs
    · exact k.branch s t c b hc hrow h hs
  · rw [exec_request hrequest] at h
    cases h
    exact k.goodFrame _ (fun u _ => k.takePayload tag payload) hs

end
end Sys2Proof.Machine
end

section
/-! PROOFS. The operations the invariants share: what the choice of the Delivery Unit does, what a relay comes to, how a
request is answered, and how a warm restart goes from branch to branch. -/
namespace Sys2Proof.Machine

section
variable {s t : State}

/-! ### The choice -/

/-- The choice does nothing, resends, makes a first transmission of a class that waits, or admits an ALERT and sends it
(R138, R139). -/
theorem State.choice_cases (s : State) :
    s.choice = s ∨
    (∃ point, s.du.trunk ≠ .down ∧ s.du.round = some point ∧ s.choice = s.resend point) ∨
    (∃ c, c ≠ .alert ∧ s.du.trunk ≠ .down ∧ s.du.round = none ∧ s.sentCount < s.du.window ∧
      s.firstTransmission c = some s.choice) ∨
    (s.occupancy < poolSize ∧ s.du.trunk ≠ .down ∧ s.du.round = none ∧ s.sentCount < s.du.window ∧
      State.firstTransmission { s.addEntry .alert s.eu.snapshot with eu := s.eu.told } .alert = some s.choice) := by
  by_cases hfree : s.du.transmitter = none ∧ s.du.trunk ≠ .down
  · rw [State.choice_free hfree.1 hfree.2]
    rcases s.arbiter_cases with h | ⟨p, hp, h⟩ | ⟨c, hc, hround, hwin, h⟩ | ⟨hround, hwin, h⟩
    · exact .inl h
    · exact .inr (.inl ⟨p, hfree.2, hp, h⟩)
    · exact .inr (.inr (.inl ⟨c, hc, hfree.2, hround, hwin, h⟩))
    · unfold State.sendAlert at h
      split at h
      · rename_i hroom
        exact .inr (.inr (.inr ⟨hroom.2, hfree.2, hround, hwin, h⟩))
      · cases h
  · refine .inl (State.choice_idle ?_)
    by_contra hno
    exact hfree ⟨not_not.1 fun h => hno (.inl h), fun h => hno (.inr h)⟩

/-- What the Delivery Unit's four kinds of act keep, its choice keeps. -/
theorem keeps_choice {P : State → Prop} (hs : P s)
    (resend : ∀ p, s.du.trunk ≠ .down → s.du.round = some p → P s → P (s.resend p))
    (first : ∀ u t c, u.du = s.du → u.sentCount = s.sentCount → s.du.trunk ≠ .down → s.du.round = none →
      s.sentCount < s.du.window → P u → u.firstTransmission c = some t → P t)
    (alert : s.occupancy < poolSize → P s → P { s.addEntry .alert s.eu.snapshot with eu := s.eu.told }) :
    P s.choice := by
  rcases s.choice_cases with h | ⟨p, htrunk, hp, h⟩ | ⟨c, -, htrunk, hround, hwin, h⟩ | ⟨hroom, htrunk, hround, hwin, h⟩
  · rwa [h]
  · rw [h]; exact resend p htrunk hp hs
  · exact first s _ c rfl rfl htrunk hround hwin hs h
  · exact first { s.addEntry .alert s.eu.snapshot with eu := s.eu.told } _ .alert rfl
      (State.addEntry_sentCount s .alert s.eu.snapshot) htrunk hround hwin (alert hroom hs) h

/-- The arrival of a good frame on a trunk that is not DOWN is nothing; on one that is DOWN the trunk comes UP and the
choice follows (R150, R151). -/
theorem State.recover_cases (s : State) :
    (s.du.trunk ≠ .down ∧ s.recover = s) ∨
    (s.du.trunk = .down ∧ s.sentCount = 0 ∧ s.recover = State.choice { s.signalDevice .trunkRecovered with
      du := { s.du with trunk := .up, timeoutCount := 0 } }) ∨
    (s.du.trunk = .down ∧ 0 < s.sentCount ∧ s.recover = State.choice { s.signalDevice .trunkRecovered with
      du := { s.du with trunk := .up, timeoutCount := 0, round := some s.oldestSeq, timer := some 0 } }) := by
  unfold State.recover
  split
  · rename_i h; exact .inl ⟨by rw [h]; decide, rfl⟩
  · rename_i h; exact .inl ⟨by rw [h]; decide, rfl⟩
  · rename_i h
    refine .inr ?_
    dsimp only
    split
    · rename_i hzero; exact .inl ⟨h, hzero, rfl⟩
    · rename_i hpos; exact .inr ⟨h, Nat.pos_of_ne_zero hpos, rfl⟩

/-! ### Relays -/

/-- A relay is dropped, answered with a notice, or accepted for the branch of its record (R92 to R95). -/
theorem State.takeRelay_cases (s : State) (node : Nat) (tag : Byte) (payload : List Byte) :
    s.takeRelay node tag payload = { s.signalDevice .relayDropped with relaysDropped := bump s.relaysDropped } ∨
    (s.occupancy < poolSize ∧ ∃ status, s.takeRelay node tag payload = s.notice tag node status) ∨
    (∃ r, s.occupancy < poolSize ∧ payload.length ≤ 24 ∧ s.node? node = some r ∧ (s.br r.branch).current ≠ .off ∧
      (s.br r.branch).requested ≠ .off ∧ (s.br r.branch).sup.state.usable = true ∧
      (s.br r.branch).queue.length < queueDepth ∧
      s.takeRelay node tag payload = s.accept r.branch
        { tag := tag, node := node, payload := payload, age := 0, lifetime := r.lifetime }) := by
  have noticed : ∀ {status}, s.occupancy < poolSize → s.decideRelay node payload = .notice status →
      s.occupancy < poolSize ∧ ∃ status, s.takeRelay node tag payload = s.notice tag node status :=
    fun hroom h => ⟨hroom, _, State.takeRelay_notice h⟩
  by_cases hroom : s.occupancy < poolSize
  · by_cases hlen : 24 < payload.length
    · exact .inr (.inl (noticed hroom (State.decideRelay_tooLong hroom hlen)))
    · have hlen : payload.length ≤ 24 := Nat.le_of_not_lt hlen
      rcases hnode : s.node? node with _ | r
      · exact .inr (.inl (noticed hroom (State.decideRelay_noRoute hroom hlen hnode)))
      · have hfound := State.decideRelay_found hroom hlen hnode
        rw [BranchState.admission] at hfound
        split at hfound
        · exact .inr (.inl (noticed hroom hfound))
        · rename_i hmode
          split at hfound
          · exact .inr (.inl (noticed hroom hfound))
          · rename_i husable
            split at hfound
            · exact .inr (.inl (noticed hroom hfound))
            · rename_i hfull
              obtain ⟨hcurrent, hrequested⟩ := not_or.1 hmode
              exact .inr (.inr ⟨r, hroom, hlen, rfl, hcurrent, hrequested, by simpa using husable,
                Nat.lt_of_not_le hfull, State.takeRelay_accepted hfound⟩)
  · refine .inl (State.takeRelay_dropped (if_pos (Nat.le_of_not_lt hroom)))

/-! ### Requests -/

/-- What no tag in hand, no request carried out and no response offered can change, an answered request keeps (R157,
R158). -/
theorem keeps_manage {P : State → Prop} (tag : Byte) (r : Request) (hs : P s)
    (hand : ∀ s x, P s → P { s with muTag := x }) (carried : ∀ s t, Carried s t → P s → P t)
    (answer : ∀ u, P u → P (u.respond tag (carryOut r { s with muTag := some tag }).2)) :
    P (State.manage tag (carryOut r) s) :=
  hand _ none (answer _ (carried _ _ (carried_carryOut _ r) (hand s _ hs)))

/-! ### Branch by branch -/

/-- `t` is `s` after work of branch `b`, seen field by field and move by move. -/
def Work (b : Branch) (R : List Byte → Prop) (s t : State) : Prop := BranchStep b s t ∧ Moves b R False s t

theorem work_restartSupply (b : Branch) (R : List Byte → Prop) : Work b R s (s.restartSupply b) :=
  ⟨branchStep_ite (fun _ => .rfl) fun _ => branchStep_awaitSupply,
    moves_ite (fun _ => .refl) fun _ => moves_awaitSupply fun i => i.elim⟩

theorem work_purgeQueue (b : Branch) (R : List Byte → Prop) (a : Nat) : Work b R s (s.purgeQueue a b) :=
  ⟨branchStep_purgeQueue a, moves_purgeQueue a⟩

/-- The part at a warm restart, before any branch awaits its supply (R173, log 14). -/
def State.restartedPart (s : State) : State :=
  { s with
    receiver := .hunting, rx := ⟨0, 0, 0, 0⟩, muTag := none, droppedResponses := 0
    nodes := s.nodes.map NodeRecord.restarted
    branches := s.branches.map BranchState.restarted
    pool := [], credits := 0, droppedReports := 0, relaysDropped := 0
    du := s.du.restarted, eu := s.eu.atReset .warm }

theorem State.warmRestart_eq (s : State) :
    s.warmRestart =
      (((s.restartedPart.restartSupply .b0).restartSupply .b1).restartSupply .b2).restartSupply .b3 := rfl

section
variable {P : State → Prop} {R : List Byte → Prop} (work : ∀ b s t, Work b R s t → P s → P t)
include work

/-- What work of a branch keeps, a warm restart keeps once every block has its values. -/
theorem keeps_warmRestart (hs : P s.restartedPart) : P s.warmRestart :=
  work .b3 _ _ (work_restartSupply ..) <| work .b2 _ _ (work_restartSupply ..) <|
    work .b1 _ _ (work_restartSupply ..) <| work .b0 _ _ (work_restartSupply ..) hs

/-- A queue purged is work of its branch; all four purged are work of one branch after another (R38, R100). -/
theorem keeps_purgeAll (a : Nat) (hs : P s) : P (s.purgeAll a) :=
  work .b3 _ _ (work_purgeQueue ..) <| work .b2 _ _ (work_purgeQueue ..) <|
    work .b1 _ _ (work_purgeQueue ..) <| work .b0 _ _ (work_purgeQueue ..) hs

end

/-- The settings of a branch written first, the rest of a WRITE BRANCH is work of the branch (R189, log 13). -/
theorem work_applyBranch {b : Branch} {R : List Byte → Prop} (w : BranchWrite) :
    Work b R (s.onBr b fun B => B.settings w) (s.applyBranch b w) := by
  unfold State.applyBranch
  dsimp only
  split
  · exact ⟨branchStep_disableSupervision, moves_disableSupervision fun i => i.elim⟩
  · exact ⟨branchStep_enableSupervision, moves_enableSupervision⟩
  · exact ⟨branchStep_compare _, moves_compare _⟩
  · exact ⟨.rfl, .refl⟩

/-- With its credit reserved and its entry in the queue, the rest of an accepted relay is work of the branch (R95). -/
theorem work_accept {b : Branch} {R : List Byte → Prop} (c : Command) :
    Work b R (s.reserve.onBr b fun B => { B with queue := B.queue ++ [c] }) (s.accept b c) :=
  ⟨(branchStep_count _).trans branchStep_kick, (moves_count _).trans moves_kick⟩

theorem work_takeSwap {b : Branch} {R : List Byte → Prop} : Work b R s (s.takeSwap b) :=
  ⟨branchStep_takeSwap, moves_takeSwap⟩

theorem work_requestMode {b : Branch} {R : List Byte → Prop} (m : Mode) : Work b R s (s.requestMode b m) :=
  ⟨branchStep_requestMode m, moves_requestMode m⟩

/-- What a row of a branch finds and does, its supply aside, is work of the branch; a choice may follow. -/
theorem keeps_worked {P : State → Prop} {R : List Byte → Prop} {b : Branch} {c : Instr} (hs : P s)
    (held : (s.br b).ReplyIn R) (bytes : BytesIn R s c) (row : branchRow c = some b) (h : exec c s = .next t)
    (supply : ∀ x, P s → P (s.onBr b fun B => { B with supply := x })) (work : ∀ b s t, Work b R s t → P s → P t)
    (choice : ∀ s, P s → P s.choice) : P t := by
  obtain ⟨v, u, hv, hwork, ht⟩ := worked_exec (idle := False) (fun i => i.elim) held bytes row h
  have hu : P u := work b v u hwork (by
    rcases hv with rfl | ⟨x, rfl⟩
    · exact hs
    · exact supply x hs)
  rcases ht with rfl | rfl
  · exact hu
  · exact choice u hu

/-- Where nothing is asked of reply bytes, nothing is to show of them. -/
theorem bytesIn_any (s : State) (c : Instr) : BytesIn (fun _ => True) s c := by
  cases c
  case branchCharacter => exact fun _ _ _ _ => trivial
  all_goals trivial

/-- One step is a tick of the Time Base, or the command at the front of the queue. -/
theorem step_cases (h : step s = .next t) :
    (s.pending = [] ∧ t = s.tick) ∨ ∃ c rest, s.pending = c :: rest ∧ exec c { s with pending := rest } = .next t := by
  unfold step at h
  split at h
  · cases h; exact .inl ⟨‹_›, rfl⟩
  · exact .inr ⟨_, _, ‹_›, h⟩

end
end Sys2Proof.Machine
end

section
/-! PROOFS. Delivery: the sequence numbers, the timer, the trunk state and the round agree after every step (R136, R140,
R146, R148, R149). -/
namespace Sys2Proof.Machine

section
variable {seqs seqs' : List (BitVec 4)} {d d' : Delivery} {s t : State}

/-! ### The Delivery Unit over its SENT numbers -/

/-- `DeliveryOk` as a property of the Delivery Unit and the numbers SENT. -/
structure Delivery.Agrees (d : Delivery) (seqs : List (BitVec 4)) : Prop where
  consecutive : seqs.Perm (seqsFrom (d.nextSeq - BitVec.ofNat 4 seqs.length) seqs.length)
  few         : seqs.length ≤ 8
  timer       : d.timer.isSome = true ↔ 0 < seqs.length ∧ d.trunk ≠ .down
  up          : d.trunk = .up → d.timeoutCount = 0
  retrying    : d.trunk = .retrying → 1 ≤ d.timeoutCount ∧ d.timeoutCount ≤ 14
  timeouts    : d.timeoutCount ≤ 15
  round       : ∀ p, d.round = some p → p ∈ seqs ∧ d.trunk ≠ .down
  window      : 1 ≤ d.window ∧ d.window ≤ 8
  timeout     : 2 ≤ d.timeout ∧ d.timeout ≤ 255
  failLimit   : 2 ≤ d.failLimit ∧ d.failLimit ≤ 15

theorem deliveryOk_iff (s : State) : DeliveryOk s ↔ s.du.Agrees s.sentSeqs := by
  constructor
  · rintro ⟨h1, h2, h3, h4, h5, h6, h7, h8, h9, h10⟩
    rw [State.oldestSeq, State.sentCount_eq_length] at h1
    rw [State.sentCount_eq_length] at h2 h3
    exact ⟨h1, h2, h3, h4, h5, h6, h7, h8, h9, h10⟩
  · rintro ⟨h1, h2, h3, h4, h5, h6, h7, h8, h9, h10⟩
    refine ⟨?_, ?_, ?_, h4, h5, h6, h7, h8, h9, h10⟩
    · rwa [State.oldestSeq, State.sentCount_eq_length]
    · rwa [State.sentCount_eq_length]
    · rwa [State.sentCount_eq_length]

/-- With the same numbers SENT, only a change of the Delivery Unit's own fields matters. -/
theorem DeliveryOk.same (h : DeliveryOk s) (hseqs : t.sentSeqs = s.sentSeqs) (hdu : t.du = s.du) : DeliveryOk t := by
  rw [deliveryOk_iff] at h ⊢
  rwa [hseqs, hdu]

theorem Delivery.Agrees.mem_iff (h : d.Agrees seqs) {q : BitVec 4} :
    q ∈ seqs ↔ (q - (d.nextSeq - BitVec.ofNat 4 seqs.length)).toNat < seqs.length := by
  have := h.few
  rw [h.consecutive.mem_iff, mem_seqsFrom (by omega)]

/-- Where something is SENT the oldest number is SENT (R142). -/
theorem Delivery.Agrees.oldest_mem (h : d.Agrees seqs) (pos : 0 < seqs.length) :
    d.nextSeq - BitVec.ofNat 4 seqs.length ∈ seqs := by
  rw [h.mem_iff, BitVec.sub_self]
  exact pos

/-- The number counted up from a SENT number is SENT, or is the next number (R149). -/
theorem Delivery.Agrees.next_mem (h : d.Agrees seqs) {p : BitVec 4} (hp : p ∈ seqs) (hlast : p + 1 ≠ d.nextSeq) :
    p + 1 ∈ seqs := by
  have hfew := h.few
  rw [h.mem_iff] at hp ⊢
  generalize hn : seqs.length = n at *
  have hlast : (p + 1).toNat ≠ d.nextSeq.toNat := fun e => hlast (BitVec.eq_of_toNat_eq e)
  generalize d.nextSeq = q at *
  simp only [BitVec.toNat_add, BitVec.toNat_sub, BitVec.toNat_ofNat] at hp hlast ⊢
  have hone : (1 : BitVec 4).toNat = 1 := rfl
  have := p.isLt
  have := q.isLt
  omega

/-! ### The acts of the Delivery Unit -/

theorem seqsFrom_succ (S : BitVec 4) (n : Nat) : seqsFrom S (n + 1) = seqsFrom S n ++ [S + BitVec.ofNat 4 n] := by
  simp [seqsFrom, List.range_succ]

/-- The next number taken by one more SENT entry (R140, R146). -/
theorem Delivery.Agrees.sent (h : d.Agrees seqs) (perm : seqs'.Perm (seqs ++ [d.nextSeq])) (room : seqs.length < d.window)
    (trunk : d.trunk ≠ .down) (round : d.round = none) (transmitter : Option LineFrame) (frames : Half) :
    Delivery.Agrees { d with
      nextSeq := d.nextSeq + 1, timer := if seqs.length = 0 then some 0 else d.timer
      transmitter := transmitter, framesSent := frames } seqs' := by
  have hlen : seqs'.length = seqs.length + 1 := by rw [perm.length_eq, List.length_append, List.length_singleton]
  have hwin := h.window
  refine ⟨?_, by omega, ?_, h.up, h.retrying, h.timeouts, ?_, hwin, h.timeout, h.failLimit⟩
  · have hold : d.nextSeq + 1 - BitVec.ofNat 4 (seqs.length + 1) = d.nextSeq - BitVec.ofNat 4 seqs.length := by
      rw [BitVec.ofNat_add]
      exact add_sub_add_right_eq_sub ..
    rw [hlen, hold, seqsFrom_succ, BitVec.sub_add_cancel]
    exact perm.trans (h.consecutive.append_right _)
  · rw [hlen]
    refine ⟨fun _ => ⟨Nat.succ_pos _, trunk⟩, fun _ => ?_⟩
    show Option.isSome (if seqs.length = 0 then some 0 else d.timer) = true
    split
    · rfl
    · exact h.timer.2 ⟨by omega, trunk⟩
  · intro p hp
    rw [show d.round = some p from hp] at round
    cases round

/-- A resend moves the resend point to the next SENT number, or closes the round (R149). -/
theorem Delivery.Agrees.resent (h : d.Agrees seqs) {point : BitVec 4} (round : d.round = some point)
    (transmitter : Option LineFrame) (frames again : Half) :
    Delivery.Agrees { d with
      round := if point + 1 = d.nextSeq then none else some (point + 1)
      transmitter := transmitter, framesSent := frames, retransmissions := again } seqs := by
  obtain ⟨hmem, htrunk⟩ := h.round point round
  refine { h with round := fun p hp => ?_ }
  dsimp only at hp
  split at hp
  · cases hp
  · rename_i hlast
    cases hp
    exact ⟨h.next_mem hmem hlast, htrunk⟩

/-- A trunk that was DOWN comes UP, with a round and the timer where something is SENT (R151). -/
theorem Delivery.Agrees.recovered (h : d.Agrees seqs) (down : d.trunk = .down) :
    (seqs.length = 0 → Delivery.Agrees { d with trunk := .up, timeoutCount := 0 } seqs) ∧
    (0 < seqs.length → Delivery.Agrees { d with
      trunk := .up, timeoutCount := 0, round := some (d.nextSeq - BitVec.ofNat 4 seqs.length), timer := some 0 } seqs) := by
  have up : TrunkState.up ≠ TrunkState.down := by decide
  have hround : ∀ p, d.round ≠ some p := fun p hp => (h.round p hp).2 down
  have htimer : d.timer.isSome ≠ true := fun ht => (h.timer.1 ht).2 down
  constructor
  · intro zero
    exact { h with
      timer := ⟨fun ht => absurd ht htimer, fun hpos => absurd hpos.1 (by omega)⟩, up := fun _ => rfl
      retrying := fun e => (nomatch e), timeouts := Nat.zero_le _, round := fun p hp => absurd hp (hround p) }
  · intro pos
    exact { h with
      timer := ⟨fun _ => ⟨pos, up⟩, fun _ => rfl⟩, up := fun _ => rfl, retrying := fun e => (nomatch e)
      timeouts := Nat.zero_le _, round := fun p hp => by cases hp; exact ⟨h.oldest_mem pos, up⟩ }

/-- An expiry of the running timer opens a round at the oldest SENT number, or brings the trunk DOWN (R147, R148). -/
theorem Delivery.Agrees.expired (h : d.Agrees seqs) (running : d.timer.isSome = true) :
    (d.timeoutCount + 1 < d.failLimit → Delivery.Agrees { d with
      timeoutCount := d.timeoutCount + 1, round := some (d.nextSeq - BitVec.ofNat 4 seqs.length), timer := some 0
      trunk := .retrying } seqs) ∧
    (d.failLimit ≤ d.timeoutCount + 1 → Delivery.Agrees { d with
      timeoutCount := d.timeoutCount + 1, round := none, timer := none, trunk := .down } seqs) := by
  obtain ⟨hpos, htrunk⟩ := h.timer.1 running
  have hlimit := h.failLimit
  have retrying : TrunkState.retrying ≠ TrunkState.down := by decide
  constructor
  · intro hbelow
    exact { h with
      timer := ⟨fun _ => ⟨hpos, retrying⟩, fun _ => rfl⟩, up := fun e => (nomatch e)
      retrying := fun _ => ⟨Nat.succ_pos _, by show d.timeoutCount + 1 ≤ 14; omega⟩
      timeouts := by show d.timeoutCount + 1 ≤ 15; omega
      round := fun p hp => by cases hp; exact ⟨h.oldest_mem hpos, retrying⟩ }
  · intro _
    have hcount : d.timeoutCount ≤ 14 := by
      cases ht : d.trunk with
      | down => exact absurd ht htrunk
      | up => have := h.up ht; omega
      | retrying => exact (h.retrying ht).2
    exact { h with
      timer := ⟨fun ht => (nomatch ht), fun ht => absurd rfl ht.2⟩, up := fun e => (nomatch e)
      retrying := fun e => (nomatch e), timeouts := by show d.timeoutCount + 1 ≤ 15; omega
      round := fun p hp => nomatch hp }

theorem seqsFrom_add (S : BitVec 4) (m n : Nat) :
    seqsFrom S (m + n) = seqsFrom S m ++ seqsFrom (S + BitVec.ofNat 4 m) n := by
  simp [seqsFrom, List.range_add, BitVec.ofNat_add, BitVec.add_assoc]

/-- The numbers left once the `k` oldest are freed are those counted up from the oldest plus `k` (R143). -/
theorem filter_seqsFrom (S : BitVec 4) {k n : Nat} (hk : k ≤ n) (few : n < 16) :
    ((seqsFrom S n).filter fun q => decide (k ≤ (q - S).toNat)) = seqsFrom (S + BitVec.ofNat 4 k) (n - k) := by
  have dist : ∀ i, i < n → (S + BitVec.ofNat 4 i - S).toNat = i := fun i hi => by
    rw [BitVec.add_comm, BitVec.add_sub_cancel, BitVec.toNat_ofNat, Nat.mod_eq_of_lt (by omega)]
  obtain ⟨m, rfl⟩ := Nat.exists_eq_add_of_le hk
  rw [seqsFrom_add, List.filter_append, Nat.add_sub_cancel_left]
  have hfreed : ((seqsFrom S k).filter fun q => decide (k ≤ (q - S).toNat)) = [] :=
    (filter_seqsFrom_eq_nil (by omega)).2 (Nat.le_refl k)
  have hleft : ((seqsFrom (S + BitVec.ofNat 4 k) m).filter fun q => decide (k ≤ (q - S).toNat)) =
      seqsFrom (S + BitVec.ofNat 4 k) m := by
    refine List.filter_eq_self.2 fun q hq => ?_
    obtain ⟨i, hi, rfl⟩ := List.mem_map.1 hq
    rw [BitVec.add_assoc, ← BitVec.ofNat_add, dist _ (by have := List.mem_range.1 hi; omega)]
    exact decide_eq_true (Nat.le_add_right k i)
  rw [hfreed, hleft, List.nil_append]

/-- Progress by `k` frees the `k` oldest numbers, and a round whose point is freed moves to the oldest left (R143,
R144). -/
theorem Delivery.Agrees.progressed (h : d.Agrees seqs) {k : Nat} (hk : k ≤ seqs.length) (trunk : d.trunk ≠ .down) :
    let oldest := d.nextSeq - BitVec.ofNat 4 seqs.length
    Delivery.Agrees { d with
      timeoutCount := 0
      trunk := if d.trunk = .retrying then .up else d.trunk
      timer := if k = seqs.length then none else some 0
      round := d.round.bind fun p =>
        if k = seqs.length then none
        else if (p - oldest).toNat < k then some (oldest + BitVec.ofNat 4 k)
        else some p } (seqs.filter fun q => decide (k ≤ (q - oldest).toNat)) := by
  intro oldest
  have hfew := h.few
  have hperm : (seqs.filter fun q => decide (k ≤ (q - oldest).toNat)).Perm
      (seqsFrom (oldest + BitVec.ofNat 4 k) (seqs.length - k)) := by
    rw [← filter_seqsFrom oldest hk (by omega)]
    exact h.consecutive.filter _
  have hlen : (seqs.filter fun q => decide (k ≤ (q - oldest).toNat)).length = seqs.length - k := by
    rw [hperm.length_eq, seqsFrom, List.length_map, List.length_range]
  have hup : (if d.trunk = .retrying then TrunkState.up else d.trunk) = .up := by
    cases ht : d.trunk with
    | down => exact absurd ht trunk
    | up => rfl
    | retrying => rfl
  have notDown : (if d.trunk = .retrying then TrunkState.up else d.trunk) ≠ .down := by rw [hup]; decide
  refine ⟨?_, by rw [hlen]; omega, ?_, fun _ => rfl, fun e => ?_, Nat.zero_le _, fun p hp => ⟨?_, notDown⟩, h.window,
    h.timeout, h.failLimit⟩
  · have hold : d.nextSeq - BitVec.ofNat 4 (seqs.length - k) = oldest + BitVec.ofNat 4 k := by
      apply BitVec.eq_of_toNat_eq
      have := d.nextSeq.isLt
      simp only [oldest, BitVec.toNat_add, BitVec.toNat_sub, BitVec.toNat_ofNat]
      omega
    rw [hlen, hold]
    exact hperm
  · rw [hlen]
    show Option.isSome (if k = seqs.length then none else some 0) = true ↔ _
    split
    · exact ⟨fun e => (nomatch e), fun e => absurd e.1 (by omega)⟩
    · exact ⟨fun _ => ⟨by omega, notDown⟩, fun _ => rfl⟩
  · have e : (if d.trunk = .retrying then TrunkState.up else d.trunk) = .retrying := e
    rw [hup] at e
    cases e
  · obtain ⟨q, hq, hmoved⟩ := Option.bind_eq_some_iff.1 hp
    obtain ⟨hmem, -⟩ := h.round q hq
    split at hmoved
    · cases hmoved
    · rename_i hne
      split at hmoved
      · cases hmoved
        rw [hperm.mem_iff, mem_seqsFrom (by omega), BitVec.sub_self]
        show 0 < _
        omega
      · cases hmoved
        exact List.mem_filter.2 ⟨hmem, decide_eq_true (by omega)⟩

/-! ### The part -/

/-- Entries that join the pool as QUEUED leave the SENT numbers (R117, R136). -/
theorem sentSeqs_of_pool {new : List Entry} (hpool : t.pool = s.pool ++ new) (hnew : ∀ e ∈ new, e.state = .queued) :
    t.sentSeqs = s.sentSeqs := by
  have hnone : new.filterMap Entry.seq? = [] := List.filterMap_eq_nil_iff.2 fun e he => by
    rw [Entry.seq?, hnew e he]
  rw [State.sentSeqs, hpool, List.filterMap_append, hnone, List.append_nil]
  rfl

/-- Work of a branch adds QUEUED entries alone, and does not reach the Delivery Unit. -/
theorem DeliveryOk.work {b : Branch} (h : Work b (fun _ => True) s t) (hs : DeliveryOk s) : DeliveryOk t := by
  obtain ⟨new, hpool, hnew⟩ := h.1.pool
  exact hs.same (sentSeqs_of_pool hpool fun e he => (hnew e he).1) h.1.du

theorem DeliveryOk.resend {p : BitVec 4} (hround : s.du.round = some p) (hs : DeliveryOk s) : DeliveryOk (s.resend p) := by
  unfold State.resend
  split
  · exact hs
  · rw [deliveryOk_iff] at hs ⊢
    exact hs.resent hround _ _ _

theorem DeliveryOk.firstTransmission {c : UplinkClass} (trunk : s.du.trunk ≠ .down) (round : s.du.round = none)
    (room : s.sentCount < s.du.window) (hs : DeliveryOk s) (h : s.firstTransmission c = some t) : DeliveryOk t := by
  obtain ⟨pre, e, post, hpool, ⟨hqueued, -⟩, -, rfl⟩ := State.firstTransmission_some h
  rw [deliveryOk_iff] at hs ⊢
  have hseqs : s.sentSeqs = pre.filterMap Entry.seq? ++ post.filterMap Entry.seq? := by
    have he : Entry.seq? e = none := by rw [Entry.seq?, hqueued]
    rw [State.sentSeqs, hpool, List.filterMap_append, List.filterMap_cons_none he]
  rw [State.sentCount_eq_length] at room ⊢
  refine hs.sent ?_ room trunk round _ _
  rw [hseqs, State.sentSeqs, List.filterMap_append,
    List.filterMap_cons_some (show Entry.seq? _ = some s.du.nextSeq from rfl)]
  exact List.perm_middle.trans (List.perm_append_singleton _ _).symm

theorem DeliveryOk.choice (hs : DeliveryOk s) : DeliveryOk s.choice := by
  refine keeps_choice hs (fun p _ hround => DeliveryOk.resend hround) (fun u v c hdu hcount trunk round room hu h => ?_)
    fun _ h => ?_
  · rw [← hdu] at trunk round room
    rw [← hcount] at room
    exact hu.firstTransmission trunk round room h
  · exact h.same (sentSeqs_of_pool rfl fun e he => by rw [List.mem_singleton.1 he]) rfl

theorem DeliveryOk.recover (hs : DeliveryOk s) : DeliveryOk s.recover := by
  rcases s.recover_cases with ⟨-, h⟩ | ⟨hdown, hcount, h⟩ | ⟨hdown, hcount, h⟩ <;> rw [h]
  · exact hs
  · rw [deliveryOk_iff] at hs
    rw [State.sentCount_eq_length] at hcount
    exact DeliveryOk.choice ((deliveryOk_iff _).2 ((hs.recovered hdown).1 hcount))
  · rw [deliveryOk_iff] at hs
    rw [State.oldestSeq, State.sentCount_eq_length]
    rw [State.sentCount_eq_length] at hcount
    exact DeliveryOk.choice ((deliveryOk_iff _).2 ((hs.recovered hdown).2 hcount))

theorem DeliveryOk.progress {k : Nat} (hk : k ≤ s.sentCount) (trunk : s.du.trunk ≠ .down) (hs : DeliveryOk s) :
    DeliveryOk (s.progress k) := by
  have few := hs.few
  rw [State.progress_of_seqs (by omega) hs.consecutive hk]
  rw [deliveryOk_iff] at hs ⊢
  have holdest : s.du.nextSeq - BitVec.ofNat 4 s.sentSeqs.length = s.oldestSeq := by
    rw [State.oldestSeq, State.sentCount_eq_length]
  rw [State.sentCount_eq_length] at hk
  have hprogress := hs.progressed hk trunk
  dsimp only at hprogress
  rw [holdest, ← State.sentCount_eq_length, ← s.freeOldest_sentSeqs k] at hprogress
  exact hprogress

theorem DeliveryOk.takeAck (next : Byte) (payload : List Byte) (trunk : s.du.trunk ≠ .down) (hs : DeliveryOk s) :
    DeliveryOk (s.takeAck next payload) := by
  have stale : DeliveryOk s.staleAck := by
    rw [deliveryOk_iff] at hs ⊢
    exact { hs with }
  unfold State.takeAck
  dsimp only
  split
  · exact stale
  · split
    · exact hs
    · split
      · exact hs
      · split
        · exact hs.progress ‹_› trunk
        · exact stale

theorem DeliveryOk.expire (running : s.du.timer.isSome = true) (hs : DeliveryOk s) : DeliveryOk s.expire := by
  rw [deliveryOk_iff] at hs
  unfold State.expire
  dsimp only
  rw [State.oldestSeq, State.sentCount_eq_length]
  split
  · exact (deliveryOk_iff _).2 ((hs.expired running).1 ‹_›)
  · exact (deliveryOk_iff _).2 ((hs.expired running).2 (by omega))

/-- With nothing SENT and the trunk DOWN, only the settings matter (R156). -/
theorem DeliveryOk.of_empty (hpool : s.pool = []) (hdu : s.du = Delivery.restarted d)
    (window : 1 ≤ d.window ∧ d.window ≤ 8) (timeout : 2 ≤ d.timeout ∧ d.timeout ≤ 255)
    (failLimit : 2 ≤ d.failLimit ∧ d.failLimit ≤ 15) : DeliveryOk s := by
  have hseqs : s.sentSeqs = [] := by rw [State.sentSeqs, hpool]; rfl
  rw [deliveryOk_iff, hseqs, hdu]
  exact ⟨.refl _, Nat.zero_le _, ⟨fun e => (nomatch e), fun e => absurd e.1 (Nat.lt_irrefl 0)⟩, fun e => (nomatch e),
    fun e => (nomatch e), Nat.zero_le _, fun p e => (nomatch e), window, timeout, failLimit⟩

/-- The values a WRITE DEVICE carries are in their ranges (R166). -/
structure DeviceWrite.InRange (w : DeviceWrite) : Prop where
  window    : ∀ n, w.window = some n → 1 ≤ n ∧ n ≤ 8
  timeout   : ∀ n, w.timeout = some n → 2 ≤ n ∧ n ≤ 255
  failLimit : ∀ n, w.failLimit = some n → 2 ≤ n ∧ n ≤ 15
  enables   : ∀ b v, w.enables.get b = some v → v &&& ~~~branchFlagSet = 0
  device    : ∀ v, w.device = some v → v &&& ~~~deviceFlagSet = 0

theorem flagSetValue_some {g : Group} {set v : Byte} (h : flagSetValue g set = some v) : v &&& ~~~g.flagSet = 0 := by
  unfold flagSetValue at h
  split at h
  · cases h; assumption
  · cases h

/-- A field that is named once is new, and in its range (R165). -/
theorem once_map_some {α β : Type} {held new : Option α} {f : Option α → β} {y : β}
    (h : (once held new).map f = some y) : y = f new := by
  obtain ⟨x, hx, rfl⟩ := Option.map_eq_some_iff.1 h
  rw [(once_some hx).2.1]

theorem DeviceWrite.InRange.addEnables {w w' : DeviceWrite} {b : Branch} {v : Nat} (hw : w.InRange)
    (h : w.addEnables b v = some w') : w'.InRange := by
  rw [once_map_some h]
  refine { hw with enables := fun c x hx => ?_ }
  by_cases hc : c = b
  · subst hc
    rw [Per.get_set_same] at hx
    exact flagSetValue_some hx
  · rw [Per.get_set_other _ _ hc] at hx
    exact hw.enables c x hx

theorem DeviceWrite.InRange.add {w w' : DeviceWrite} {i : FieldItem} (hw : w.InRange) (h : w.add i = some w') :
    w'.InRange := by
  unfold DeviceWrite.add at h
  dsimp only at h
  split at h
  · rw [once_map_some h]; exact { hw with window := fun n e => (inRange_some e).2 }
  · rw [once_map_some h]; exact { hw with timeout := fun n e => (inRange_some e).2 }
  · rw [once_map_some h]; exact { hw with failLimit := fun n e => (inRange_some e).2 }
  · exact hw.addEnables h
  · exact hw.addEnables h
  · exact hw.addEnables h
  · exact hw.addEnables h
  · rw [once_map_some h]; exact { hw with device := fun v e => flagSetValue_some e }
  · cases h

theorem DeviceWrite.inRange_empty : DeviceWrite.empty.InRange where
  window _ h := by cases h
  timeout _ h := by cases h
  failLimit _ h := by cases h
  enables b _ h := by cases b <;> cases h
  device _ h := by cases h

theorem DeviceWrite.inRange_of_gather {w : Walk} {d : DeviceWrite}
    (h : w.gather DeviceWrite.empty DeviceWrite.add = some d) : d.InRange :=
  Walk.gather_keeps (P := DeviceWrite.InRange) DeviceWrite.inRange_empty (fun _ _ _ hw => hw.add) h

theorem getD_of_forall {α : Type} {P : α → Prop} {o : Option α} {x : α} (h : ∀ y, o = some y → P y) (k : P x) :
    P (o.getD x) := by
  cases o with
  | none => exact k
  | some y => exact h y rfl

theorem DeliveryOk.applyDevice {w : DeviceWrite} (hw : w.InRange) (hs : DeliveryOk s) :
    DeliveryOk (s.applyDevice w) := by
  rw [deliveryOk_iff] at hs ⊢
  exact { hs with
    window := getD_of_forall (P := fun n => 1 ≤ n ∧ n ≤ 8) hw.window hs.window
    timeout := getD_of_forall (P := fun n => 2 ≤ n ∧ n ≤ 255) hw.timeout hs.timeout
    failLimit := getD_of_forall (P := fun n => 2 ≤ n ∧ n ≤ 15) hw.failLimit hs.failLimit }

theorem DeliveryOk.carried (h : Carried s t) (hs : DeliveryOk s) : DeliveryOk t := by
  cases h with
  | device w d h => exact hs.applyDevice (DeviceWrite.inRange_of_gather h)
  | branch b w d h => exact DeliveryOk.work (work_applyBranch d) (hs.same rfl rfl)
  | updated r hr w d h =>
    unfold State.updateRecord
    dsimp only
    split <;> exact hs.same rfl rfl
  | deleted a =>
    exact keeps_purgeAll (fun _ _ _ => DeliveryOk.work) a (hs.same rfl rfl)
  | purged a => exact keeps_purgeAll (fun _ _ _ => DeliveryOk.work) a hs
  | swapped b => exact hs.work work_takeSwap
  | mode b m => exact hs.work (work_requestMode m)
  | counters g =>
    cases g with
    | branch b => exact hs.same rfl rfl
    | device =>
      rw [deliveryOk_iff] at hs ⊢
      exact { hs with }
  | _ => exact hs.same rfl rfl

theorem DeliveryOk.respond (tag : Byte) (r : Reply) (hs : DeliveryOk s) : DeliveryOk (s.respond tag r) := by
  rcases s.respond_cases tag r with ⟨-, -, h⟩ | ⟨-, h⟩ <;> rw [h]
  · exact hs.same (sentSeqs_of_pool rfl fun e he => by rw [List.mem_singleton.1 he]) rfl
  · exact hs.same rfl rfl

theorem DeliveryOk.takeRelay (node : Nat) (tag : Byte) (payload : List Byte) (hs : DeliveryOk s) :
    DeliveryOk (s.takeRelay node tag payload) := by
  rcases s.takeRelay_cases node tag payload with h | ⟨-, status, h⟩ | ⟨r, -, -, -, -, -, -, -, h⟩ <;> rw [h]
  · exact hs.same rfl rfl
  · exact hs.same (sentSeqs_of_pool rfl fun e he => by rw [List.mem_singleton.1 he]) rfl
  · refine DeliveryOk.work (work_accept _) (hs.same rfl rfl)

theorem kept_deliveryOk : Kept (fun _ _ => True) DeliveryOk where
  reset s cause sa tr _ :=
    DeliveryOk.of_empty (d := Delivery.reset) rfl rfl (by decide) (by decide) (by decide)
  hunt s rx hs := hs.same rfl rfl
  begin s v rx hs := hs.same rfl rfl
  append s taken v more _ _ hs := hs.same rfl rfl
  choice s := DeliveryOk.choice
  recover s := DeliveryOk.recover
  ack s next payload := DeliveryOk.takeAck next payload
  relay s node tag payload := DeliveryOk.takeRelay node tag payload
  manage s tag r hs := keeps_manage tag r hs (fun _ _ hs => hs.same rfl rfl) (fun _ _ => DeliveryOk.carried)
    fun _ => DeliveryOk.respond tag _
  restart s hs := keeps_warmRestart (fun _ _ _ => DeliveryOk.work)
    (DeliveryOk.of_empty rfl rfl hs.window hs.timeout hs.failLimit)
  free s hs := by
    rw [deliveryOk_iff] at hs ⊢
    exact { hs with }
  expire s := DeliveryOk.expire
  branch s t c b _ row h hs :=
    keeps_worked hs (fun _ _ _ _ _ => trivial) (bytesIn_any s c) row h (fun _ hs => hs.same rfl rfl)
      (fun _ _ _ => DeliveryOk.work) fun _ => DeliveryOk.choice

theorem DeliveryOk.tick (hs : DeliveryOk s) : DeliveryOk s.tick := by
  rw [deliveryOk_iff] at hs ⊢
  refine { hs with timer := ?_ }
  show (s.du.timer.map (· + 1)).isSome = true ↔ _
  rw [Option.isSome_map]
  exact hs.timer

end
end Sys2Proof.Machine

/-! ### The statement -/

namespace Sys2Proof.Invariants
open Sys2Proof.Machine

/-- Settles O57: what every operation keeps of the SENT numbers and the Delivery Unit's fields, every step keeps. -/
theorem deliveryKept : Obligations.DeliveryKept := by
  intro s t hs h
  rcases step_cases h with ⟨-, rfl⟩ | ⟨c, rest, -, hexec⟩
  · exact hs.tick
  · exact kept_deliveryOk.exec trivial hexec (hs.same rfl rfl)

end Sys2Proof.Invariants
end

section
/-! PROOFS. Settings: every branch setting and bank stays in its range, and every group to its own flags (R41, R44, R111,
R174, R184, R193). -/
namespace Sys2Proof.Machine

section
variable {s t : State}

/-! ### What a WRITE carries is in range -/

/-- The values a WRITE BRANCH carries are in their ranges (R167). -/
structure BranchWrite.InRange (w : BranchWrite) : Prop where
  level       : ∀ n, w.level = some n → n ≤ 7
  qualifyTime : ∀ n, w.qualifyTime = some n → 1 ≤ n ∧ n ≤ 255
  restoreTime : ∀ n, w.restoreTime = some n → 1 ≤ n ∧ n ≤ 255
  odWindow    : ∀ n, w.odWindow = some n → 2 ≤ n ∧ n ≤ 255
  odRetries   : ∀ n, w.odRetries = some n → n ≤ 3

theorem BranchWrite.inRange_empty : BranchWrite.empty.InRange where
  level _ h := by cases h
  qualifyTime _ h := by cases h
  restoreTime _ h := by cases h
  odWindow _ h := by cases h
  odRetries _ h := by cases h

theorem BranchWrite.InRange.add {w w' : BranchWrite} {i : FieldItem} (hw : w.InRange) (h : w.add i = some w') :
    w'.InRange := by
  unfold BranchWrite.add at h
  dsimp only at h
  split at h
  · rw [once_map_some h]; exact { hw with }
  · rw [once_map_some h]; exact { hw with }
  · rw [once_map_some h]; exact { hw with level := fun n e => (inRange_some e).2.2 }
  · rw [once_map_some h]; exact { hw with qualifyTime := fun n e => (inRange_some e).2 }
  · rw [once_map_some h]; exact { hw with restoreTime := fun n e => (inRange_some e).2 }
  · rw [once_map_some h]; exact { hw with odWindow := fun n e => (inRange_some e).2 }
  · rw [once_map_some h]; exact { hw with odRetries := fun n e => (inRange_some e).2.2 }
  · cases h

theorem BranchWrite.inRange_of_gather {w : Walk} {d : BranchWrite}
    (h : w.gather BranchWrite.empty BranchWrite.add = some d) : d.InRange :=
  Walk.gather_keeps (P := BranchWrite.InRange) BranchWrite.inRange_empty (fun _ _ _ hw => hw.add) h

/-- The values a header write carries are in their ranges (R45). -/
structure HeaderWrite.InRange (w : HeaderWrite) : Prop where
  length : ∀ n, w.length = some n → n ≤ 32
  period : ∀ n, w.period = some n → 2 ≤ n ∧ n ≤ 60000

theorem HeaderWrite.inRange_empty : HeaderWrite.empty.InRange where
  length _ h := by cases h
  period _ h := by cases h

theorem HeaderWrite.InRange.add {w w' : HeaderWrite} {i : FieldItem} (hw : w.InRange) (h : w.add i = some w') :
    w'.InRange := by
  unfold HeaderWrite.add at h
  dsimp only at h
  split at h
  · rw [once_map_some h]; exact { hw with length := fun n e => (inRange_some e).2.2 }
  · rw [once_map_some h]; exact { hw with period := fun n e => (inRange_some e).2 }
  · cases h

theorem HeaderWrite.inRange_of_gather {w : Walk} {d : HeaderWrite}
    (h : w.gather HeaderWrite.empty HeaderWrite.add = some d) : d.InRange :=
  Walk.gather_keeps (P := HeaderWrite.InRange) HeaderWrite.inRange_empty (fun _ _ _ hw => hw.add) h

/-- The entry of an entry write is within the ranges of its kind (R42). -/
theorem EntryWrite.entry_ok {w : EntryWrite} {e : SlotEntry} (h : w.entry = some e) : e.Ok := by
  unfold EntryWrite.entry at h
  split at h
  · split at h
    · cases h; assumption
    · cases h
  · cases h; trivial
  · split at h
    · cases h; assumption
    · cases h
  · cases h

/-! ### Banks and branches -/

theorem Bank.Ok.setHeader {k : Bank} {w : HeaderWrite} (hk : k.Ok) (hw : w.InRange) : (k.setHeader w).Ok where
  entries := hk.entries
  length := getD_of_forall (P := fun n => n ≤ 32) hw.length hk.length
  period := getD_of_forall (P := fun n => 2 ≤ n ∧ n ≤ 60000) hw.period hk.period

theorem Bank.Ok.setEntry {k : Bank} {e : SlotEntry} (i : Nat) (hk : k.Ok) (he : e.Ok) : (k.setEntry i e).Ok where
  entries x hx := by
    rw [Bank.setEntry, Vector.toList_setIfInBounds] at hx
    rcases List.mem_or_eq_of_mem_set hx with hx | rfl
    · exact hk.entries x hx
    · exact he
  length := hk.length
  period := hk.period

theorem BranchState.SettingsOk.onStandby {B : BranchState} {f : Bank → Bank} (hB : B.SettingsOk)
    (hf : ∀ k : Bank, k.Ok → (f k).Ok) : (B.onStandby f).SettingsOk := by
  unfold BranchState.onStandby
  split
  · exact { hB with bankB := hf _ hB.bankB }
  · exact { hB with bankA := hf _ hB.bankA }

theorem BranchState.SettingsOk.settings {B : BranchState} {w : BranchWrite} (hB : B.SettingsOk) (hw : w.InRange) :
    (B.settings w).SettingsOk :=
  { hB with
    level := getD_of_forall (P := fun n => n ≤ 7) hw.level hB.level
    qualifyTime := getD_of_forall (P := fun n => 1 ≤ n ∧ n ≤ 255) hw.qualifyTime hB.qualifyTime
    restoreTime := getD_of_forall (P := fun n => 1 ≤ n ∧ n ≤ 255) hw.restoreTime hB.restoreTime
    odWindow := getD_of_forall (P := fun n => 2 ≤ n ∧ n ≤ 255) hw.odWindow hB.odWindow
    odRetries := getD_of_forall (P := fun n => n ≤ 3) hw.odRetries hB.odRetries }

theorem BranchState.SettingsOk.same {A B : BranchState} (h : SameSettings A B) (hA : A.SettingsOk) : B.SettingsOk where
  bankA := by rw [h.bankA]; exact hA.bankA
  bankB := by rw [h.bankB]; exact hA.bankB
  level := by rw [h.level]; exact hA.level
  qualifyTime := by rw [h.qualifyTime]; exact hA.qualifyTime
  restoreTime := by rw [h.restoreTime]; exact hA.restoreTime
  odWindow := by rw [h.odWindow]; exact hA.odWindow
  odRetries := by rw [h.odRetries]; exact hA.odRetries

theorem Bank.ok_reset : Bank.reset.Ok where
  entries e he := by
    rw [Bank.reset, Vector.toList_replicate] at he
    rw [List.eq_of_mem_replicate he]
    exact ⟨Nat.le_refl 1, by decide⟩
  length := Nat.zero_le _
  period := by decide

theorem BranchState.settingsOk_reset (supply : Fin 9) : (BranchState.reset supply).SettingsOk := by
  constructor
  case bankA => exact Bank.ok_reset
  case bankB => exact Bank.ok_reset
  all_goals simp [BranchState.reset, Supervisor.reset]

/-! ### The part -/

/-- `SettingsOk` group by group. -/
theorem settingsOk_iff (s : State) :
    SettingsOk s ↔ (∀ b, (s.br b).SettingsOk) ∧ ∀ g, (s.eu.group g).Within g.flagSet := by
  constructor
  · intro h
    exact ⟨h.branches, fun g => by cases g with | branch b => exact h.groups b | device => exact h.device⟩
  · rintro ⟨hb, hg⟩
    exact ⟨hb, fun b => hg (.branch b), hg .device⟩

theorem SettingsOk.branchStep {b : Branch} (h : BranchStep b s t) (hs : SettingsOk s) : SettingsOk t := by
  rw [settingsOk_iff] at hs ⊢
  refine ⟨fun c => ?_, fun g => h.within g (hs.2 g)⟩
  by_cases hc : c = b
  · subst hc; exact (hs.1 c).same h.settings
  · rw [h.others c hc]; exact hs.1 c

theorem SettingsOk.work {b : Branch} (h : Work b (fun _ => True) s t) (hs : SettingsOk s) : SettingsOk t :=
  hs.branchStep h.1

/-- With the branches and the Event Unit as they were, the settings are. -/
theorem SettingsOk.same (hs : SettingsOk s) (hbranches : t.branches = s.branches) (heu : t.eu = s.eu) : SettingsOk t where
  branches b := by
    have hbr : t.br b = s.br b := by rw [State.br, hbranches, State.br]
    rw [hbr]
    exact hs.branches b
  groups b := by rw [heu]; exact hs.groups b
  device := by rw [heu]; exact hs.device

theorem SettingsOk.onBr {b : Branch} {f : BranchState → BranchState} (hs : SettingsOk s) (hf : (f (s.br b)).SettingsOk) :
    SettingsOk (s.onBr b f) where
  branches c := by
    by_cases hc : c = b
    · subst hc; rw [State.onBr_br_same]; exact hf
    · rw [State.onBr_br_other _ _ hc]; exact hs.branches c
  groups := hs.groups
  device := hs.device

/-- Changes of the groups that keep each to its own flags. -/
theorem SettingsOk.events (hs : SettingsOk s) (hbranches : t.branches = s.branches)
    (heu : ∀ g, (s.eu.group g).Within g.flagSet → (t.eu.group g).Within g.flagSet) : SettingsOk t := by
  rw [settingsOk_iff] at hs ⊢
  refine ⟨fun b => ?_, fun g => heu g (hs.2 g)⟩
  have hbr : t.br b = s.br b := by rw [State.br, hbranches, State.br]
  rw [hbr]
  exact hs.1 b

theorem SettingsOk.signalDevice (f : DeviceFlag) (hs : SettingsOk s) : SettingsOk (s.signalDevice f) :=
  hs.branchStep (b := .b0) (branchStep_signalDevice f)

theorem EventUnit.told_group (eu : EventUnit) (g : Group) :
    eu.told.group g = { eu.group g with pending := false } := by
  cases g with
  | branch b => cases b <;> rfl
  | device => rfl

theorem SettingsOk.choice (hs : SettingsOk s) : SettingsOk s.choice := by
  refine keeps_choice hs (fun p _ _ hs => ?_) (fun u v c _ _ _ _ _ hu h => ?_) fun _ hs => ?_
  · unfold State.resend
    split
    · exact hs
    · exact hs.same rfl rfl
  · obtain ⟨_, _, _, _, _, _, rfl⟩ := State.firstTransmission_some h
    exact hu.same rfl rfl
  · refine hs.events rfl fun g hg => ?_
    rw [EventUnit.told_group]
    exact hg

theorem SettingsOk.recover (hs : SettingsOk s) : SettingsOk s.recover := by
  rcases s.recover_cases with ⟨-, h⟩ | ⟨-, -, h⟩ | ⟨-, -, h⟩ <;> rw [h]
  · exact hs
  · exact SettingsOk.choice ((hs.signalDevice .trunkRecovered).same rfl rfl)
  · exact SettingsOk.choice ((hs.signalDevice .trunkRecovered).same rfl rfl)

theorem SettingsOk.takeAck (next : Byte) (payload : List Byte) (hs : SettingsOk s) :
    SettingsOk (s.takeAck next payload) := by
  unfold State.takeAck
  dsimp only
  split
  · exact hs.same rfl rfl
  · split
    · exact hs
    · split
      · exact hs
      · split <;> exact hs.same rfl rfl

theorem SettingsOk.respond (tag : Byte) (r : Reply) (hs : SettingsOk s) : SettingsOk (s.respond tag r) := by
  rcases s.respond_cases tag r with ⟨-, -, h⟩ | ⟨-, h⟩ <;> rw [h]
  · exact hs.same rfl rfl
  · exact (hs.signalDevice .mgmtDropped).same rfl rfl

theorem SettingsOk.takeRelay (node : Nat) (tag : Byte) (payload : List Byte) (hs : SettingsOk s) :
    SettingsOk (s.takeRelay node tag payload) := by
  rcases s.takeRelay_cases node tag payload with h | ⟨-, status, h⟩ | ⟨r, -, -, -, -, -, -, -, h⟩ <;> rw [h]
  · exact (hs.signalDevice .relayDropped).same rfl rfl
  · exact hs.same rfl rfl
  · exact SettingsOk.work (work_accept _)
      (SettingsOk.onBr (hs.same rfl rfl) { hs.branches r.branch with })

theorem SettingsOk.applyDevice {w : DeviceWrite} (hw : w.InRange) (hs : SettingsOk s) :
    SettingsOk (s.applyDevice w) := by
  refine hs.events rfl fun g hg => ⟨?_, ?_⟩
  · cases g with
    | branch b => cases b <;> exact hg.1
    | device => exact hg.1
  · cases g with
    | branch b =>
      have h := getD_of_forall (P := fun v => v &&& ~~~branchFlagSet = 0) (hw.enables b) hg.2
      cases b <;> exact h
    | device => exact getD_of_forall (P := fun v => v &&& ~~~deviceFlagSet = 0) hw.device hg.2

/-- Flags cleared leave a group its own (R170). -/
theorem FlagGroup.Within.clear {all : Byte} {g : FlagGroup} (set : Byte) (h : g.Within all) : (g.clear set).Within all := by
  refine ⟨?_, h.2⟩
  show g.flags &&& ~~~set &&& ~~~all = 0
  rw [BitVec.and_assoc, BitVec.and_comm (~~~set), ← BitVec.and_assoc, h.1]
  exact BitVec.zero_and

theorem SettingsOk.onGroup (g : Group) (f : FlagGroup → FlagGroup)
    (hf : ∀ q : FlagGroup, q.Within g.flagSet → (f q).Within g.flagSet) (hs : SettingsOk s) :
    SettingsOk { s with eu := s.eu.onGroup g f } := by
  refine hs.events rfl fun k hk => ?_
  rw [EventUnit.group_onGroup]
  split
  · subst k; exact hf _ hk
  · exact hk

theorem SettingsOk.carried (h : Carried s t) (hs : SettingsOk s) : SettingsOk t := by
  cases h with
  | unchanged => exact hs
  | device w d h => exact hs.applyDevice (DeviceWrite.inRange_of_gather h)
  | branch b w d h =>
    exact SettingsOk.work (work_applyBranch d)
      (hs.onBr ((hs.branches b).settings (BranchWrite.inRange_of_gather h)))
  | updated r hr w d h =>
    unfold State.updateRecord
    dsimp only
    split
    · refine SettingsOk.events hs rfl fun g hg => ?_
      have hraise : ∀ q : FlagGroup, q.Within branchFlagSet → (q.raise BranchFlag.nodeLost.mask).Within branchFlagSet :=
        fun q => (q.raise_spec BranchFlag.nodeLost.mask).2.2.2 _ BranchFlag.nodeLost.mask_within
      have hg : ((s.eu.onGroup (.branch (r.update d).branch) (·.raise BranchFlag.nodeLost.mask)).group g).Within
          g.flagSet := by
        rw [EventUnit.group_onGroup]
        split
        · subst g; exact hraise _ hg
        · exact hg
      cases g <;> exact hg
    · exact hs.same rfl rfl
  | created => exact hs.same rfl rfl
  | header b w d h =>
    exact hs.onBr ((hs.branches b).onStandby fun k hk => hk.setHeader (HeaderWrite.inRange_of_gather h))
  | entry b i w e h => exact hs.onBr ((hs.branches b).onStandby fun k hk => hk.setEntry i (EntryWrite.entry_ok h))
  | deleted a => exact keeps_purgeAll (fun _ _ _ => SettingsOk.work) a (hs.same rfl rfl)
  | healthReset => exact hs.same rfl rfl
  | purged a => exact keeps_purgeAll (fun _ _ _ => SettingsOk.work) a hs
  | swapAsked b => exact hs.onBr (f := fun B => { B with swapPending := true }) { hs.branches b with }
  | swapped b => exact hs.work work_takeSwap
  | mode b m => exact hs.work (work_requestMode m)
  | flags g set => exact hs.onGroup g _ fun _ => .clear set
  | counters g =>
    cases g with
    | branch b => exact hs.onBr (f := fun B => { B with counters := BranchCounters.zero }) { hs.branches b with }
    | device => exact hs.same rfl rfl

theorem FlagGroup.within_clean {all enables : Byte} (pending : Bool) (h : enables &&& ~~~all = 0) :
    FlagGroup.Within all { flags := 0, enables := enables, pending := pending } := ⟨BitVec.zero_and, h⟩

/-- A reset leaves every group its own flags (R183). -/
theorem EventUnit.atReset_within (eu : EventUnit) (cause : RestartCause) (h : ∀ g, (eu.group g).Within g.flagSet)
    (g : Group) : ((eu.atReset cause).group g).Within g.flagSet := by
  have hclean : ∀ (all : Byte) (q : FlagGroup), q.Within all →
      FlagGroup.Within all
        { flags := 0, enables := if cause = .warm then q.enables else all, pending := false } := fun all q hq => by
    refine FlagGroup.within_clean false ?_
    split
    · exact hq.2
    · exact BitVec.and_not_self all
  cases g with
  | branch b =>
    have hb := hclean branchFlagSet _ (h (.branch b))
    cases b <;> exact hb
  | device =>
    exact (FlagGroup.raise_spec _ DeviceFlag.restart.mask).2.2.2 _ DeviceFlag.restart.mask_within
      (hclean deviceFlagSet _ (h .device))

theorem SettingsOk.restartedPart (hs : SettingsOk s) : SettingsOk s.restartedPart := by
  rw [settingsOk_iff] at hs ⊢
  refine ⟨fun b => ?_, s.eu.atReset_within .warm hs.2⟩
  have hbr : s.restartedPart.br b = (s.br b).restarted := Per.get_map ..
  rw [hbr]
  exact { hs.1 b with }

theorem settingsOk_hardReset (cause : RestartCause) (sa : Fin 8) (tr : Fin 4) : SettingsOk (s.hardReset cause sa tr) := by
  rw [settingsOk_iff]
  refine ⟨fun b => ?_, EventUnit.reset.atReset_within cause fun g => ?_⟩
  · have hbr : (s.hardReset cause sa tr).br b = BranchState.reset (s.br b).supply := Per.get_map ..
    rw [hbr]
    exact BranchState.settingsOk_reset _
  · cases g with
    | branch b => cases b <;> exact ⟨by decide, by decide⟩
    | device => exact ⟨by decide, by decide⟩

theorem kept_settingsOk : Kept (fun _ _ => True) SettingsOk where
  reset _ _ _ _ _ := settingsOk_hardReset ..
  hunt _ _ hs := hs.same rfl rfl
  begin _ _ _ hs := hs.same rfl rfl
  append _ _ _ _ _ _ hs := hs.same rfl rfl
  choice _ := SettingsOk.choice
  recover _ := SettingsOk.recover
  ack _ next payload _ := SettingsOk.takeAck next payload
  relay _ node tag payload := SettingsOk.takeRelay node tag payload
  manage _ tag r hs := keeps_manage tag r hs (fun _ _ hs => hs.same rfl rfl) (fun _ _ => SettingsOk.carried)
    fun _ => SettingsOk.respond tag _
  restart _ hs := keeps_warmRestart (fun _ _ _ => SettingsOk.work) hs.restartedPart
  free _ hs := hs.same rfl rfl
  expire s _ hs := by
    unfold State.expire
    dsimp only
    split <;> exact hs.same rfl rfl
  branch s t c b _ row h hs :=
    keeps_worked hs (fun _ _ _ _ _ => trivial) (bytesIn_any s c) row h (fun _ hs => hs.onBr { hs.branches b with })
      (fun _ _ _ => SettingsOk.work) fun _ => SettingsOk.choice

theorem SettingsOk.tick (hs : SettingsOk s) : SettingsOk s.tick where
  branches b := by
    have hbr : s.tick.br b = (s.br b).tick := Per.get_map ..
    rw [hbr]
    exact { hs.branches b with }
  groups := hs.groups
  device := hs.device

end
end Sys2Proof.Machine

/-! ### The statement -/

namespace Sys2Proof.Invariants
open Sys2Proof.Machine

/-- Settles O58: writes carry values in range, and signals and clears stay within the flags of their group. -/
theorem settingsKept : Obligations.SettingsKept := by
  intro s t hs h
  rcases step_cases h with ⟨-, rfl⟩ | ⟨c, rest, -, hexec⟩
  · exact hs.tick
  · exact kept_settingsOk.exec trivial hexec (hs.same rfl rfl)

end Sys2Proof.Invariants
end

section
/-! PROOFS. Every command has an outcome and leaves the queue of commands; the node table and the downlink queues stay as
R17, R21, R57, R96 and R100 say. -/
namespace Sys2Proof.Machine

section
variable {s t u : State}

/-! ### The queue of commands -/

theorem exec_next (c : Instr) (s : State) : ∃ t, exec c s = .next t := by cases c <;> exact ⟨_, rfl⟩

/-- The commands that wait and the tick counter are those of `s`. -/
def SameClock (s t : State) : Prop := t.pending = s.pending ∧ t.ticks = s.ticks

theorem SameClock.trans (h : SameClock s t) (k : SameClock t u) : SameClock s u :=
  ⟨k.1.trans h.1, k.2.trans h.2⟩

theorem DeliveryStep.sameClock (h : DeliveryStep s t) : SameClock s t := ⟨h.pending, h.ticks⟩

theorem BranchStep.sameClock {b : Branch} (h : BranchStep b s t) : SameClock s t := ⟨h.pending, h.ticks⟩

theorem Work.sameClock {b : Branch} {R : List Byte → Prop} (h : Work b R s t) : SameClock s t := h.1.sameClock

theorem State.purgeAll_sameClock (s : State) (a : Nat) : SameClock s (s.purgeAll a) :=
  keeps_purgeAll (R := fun _ => True) (fun _ _ _ h k => k.trans h.sameClock) a ⟨rfl, rfl⟩

theorem Carried.sameClock (h : Carried s t) : SameClock s t := by
  cases h with
  | branch b w d => exact SameClock.trans ⟨rfl, rfl⟩ (work_applyBranch (R := fun _ => True) d).sameClock
  | updated r hr w d =>
    unfold State.updateRecord
    dsimp only
    split <;> exact ⟨rfl, rfl⟩
  | deleted a => exact SameClock.trans ⟨rfl, rfl⟩ (State.purgeAll_sameClock _ a)
  | purged a => exact State.purgeAll_sameClock _ a
  | swapped b => exact branchStep_takeSwap.sameClock
  | mode b m => exact (branchStep_requestMode m).sameClock
  | counters g => cases g <;> exact ⟨rfl, rfl⟩
  | _ => exact ⟨rfl, rfl⟩

theorem State.respond_sameClock (s : State) (tag : Byte) (r : Reply) : SameClock s (s.respond tag r) := by
  rcases s.respond_cases tag r with ⟨-, -, h⟩ | ⟨-, h⟩ <;> rw [h] <;> exact ⟨rfl, rfl⟩

theorem State.takeRelay_sameClock (s : State) (node : Nat) (tag : Byte) (payload : List Byte) :
    SameClock s (s.takeRelay node tag payload) := by
  rcases s.takeRelay_cases node tag payload with h | ⟨-, status, h⟩ | ⟨r, -, -, -, -, -, -, -, h⟩ <;> rw [h]
  · exact ⟨rfl, rfl⟩
  · exact ⟨rfl, rfl⟩
  · exact SameClock.trans ⟨rfl, rfl⟩ (work_accept (R := fun _ => True) _).sameClock

theorem kept_sameClock (s : State) : Kept (fun _ _ => True) (SameClock s) where
  reset _ _ _ _ h := h
  hunt _ _ h := h
  begin _ _ _ h := h
  append _ _ _ _ _ _ h := h
  choice _ h := h.trans deliveryStep_choice.sameClock
  recover _ h := h.trans deliveryStep_recover.sameClock
  ack _ next payload _ h := h.trans (deliveryStep_takeAck next payload).sameClock
  relay u node tag payload h := h.trans (u.takeRelay_sameClock node tag payload)
  manage _ tag r h := keeps_manage tag r h (fun _ _ h => h) (fun _ _ k h => h.trans k.sameClock)
    fun u h => h.trans (u.respond_sameClock tag _)
  restart _ h := keeps_warmRestart (R := fun _ => True) (fun _ _ _ k h => h.trans k.sameClock) h
  free _ h := h
  expire _ _ h := h.trans deliveryStep_expire.sameClock
  branch _ _ c _ _ row h hs := keeps_worked (R := fun _ => True) hs (fun _ _ _ _ _ => trivial) (bytesIn_any _ c) row h
    (fun _ h => h) (fun _ _ _ k h => h.trans k.sameClock) fun _ h => h.trans deliveryStep_choice.sameClock

theorem exec_sameClock {c : Instr} (h : exec c s = .next t) : SameClock s t :=
  (kept_sameClock s).exec trivial h ⟨rfl, rfl⟩

/-! ### The table -/

/-- Tables of the same configuration hold the same addresses. -/
theorem map_address_of_configuration {l m : List NodeRecord}
    (h : m.map NodeRecord.restarted = l.map NodeRecord.restarted) :
    m.map (·.address) = l.map (·.address) := by
  have key : ∀ n : List NodeRecord, n.map (·.address) = (n.map NodeRecord.restarted).map (·.address) := fun n => by
    rw [List.map_map]; rfl
  rw [key m, key l, h]

/-- The table's form over a table of the same addresses. -/
theorem TableOk.of_addresses (hs : TableOk s) (addresses : t.nodes.map (·.address) = s.nodes.map (·.address))
    (records : ∀ r ∈ t.nodes, r.Ok) (lastNode : ∀ b, t.eu.lastNode.get b ≤ 239) : TableOk t where
  few := by
    have hlen : t.nodes.length = s.nodes.length := by simpa using congrArg List.length addresses
    rw [hlen]
    exact hs.few
  ascending := by
    have h := hs.ascending
    rw [← List.pairwise_map (f := NodeRecord.address) (R := (· < ·))] at h ⊢
    rwa [addresses]
  records := records
  lastNode := lastNode

theorem findNode_isSome_of_addresses {l m : List NodeRecord} (h : m.map (·.address) = l.map (·.address)) (a : Nat) :
    (findNode a m).isSome = (findNode a l).isSome := by
  rw [Bool.eq_iff_iff, findNode_isSome, findNode_isSome, h]

/-! ### The queues -/

theorem QueueOk.of_addresses {l m : List NodeRecord} {queue : List Command} (hq : QueueOk l queue)
    (h : m.map (·.address) = l.map (·.address)) : QueueOk m queue where
  few := hq.few
  young := hq.young
  held c hc := by rw [findNode_isSome_of_addresses h]; exact hq.held c hc

/-- A command that stays is as it was, or one cycle older and short of its lifetime (R57). -/
theorem QueueOk.culled {l : List NodeRecord} {queue kept : List Command} (hq : QueueOk l queue)
    (length : kept.length ≤ queue.length)
    (same : ∀ c ∈ kept, c ∈ queue ∨ ∃ d ∈ queue, c = d.aged ∧ c.spent = false) : QueueOk l kept where
  few := length.trans hq.few
  young c hc := by
    rcases same c hc with h | ⟨d, hd, rfl, hspent⟩
    · exact hq.young c h
    · have hyoung := hq.young d hd
      have hne : d.age + 1 ≠ d.lifetime := fun e => by simp [Command.spent, Command.aged, e] at hspent
      exact ⟨by show d.age + 1 < d.lifetime; omega, hyoung.2⟩
  held c hc := by
    rcases same c hc with h | ⟨d, hd, rfl, -⟩
    · exact hq.held c h
    · exact hq.held d hd

@[simp] theorem State.convertAll_br (s : State) (status : ResultStatus) (l : List Command) (b : Branch) :
    (s.convertAll status l).br b = s.br b := by
  rw [State.convertAll_eq]
  rfl

/-- A move of a branch leaves its queue as it should be, over a table that is not looked at again. -/
theorem QueueOk.move {b : Branch} {R : List Byte → Prop} {idle : Prop} {l : List NodeRecord} (h : Move b R idle s t)
    (hq : QueueOk l (s.br b).queue) : QueueOk l (t.br b).queue := by
  cases h with
  | tidy f queue => rw [State.onBr_br_same, queue]; exact hq
  | events => exact hq
  | record => exact hq
  | report => exact hq
  | goOn => rw [State.onBr_br_same]; exact hq
  | hear => rw [State.onBr_br_same]; exact hq
  | launch before after c toggle rate w queue =>
    rw [State.onBr_br_same]
    have hsub : (before ++ after).Sublist (s.br b).queue := by
      rw [queue]
      exact (List.sublist_cons_self c after).append_left before
    exact hq.culled hsub.length_le fun d hd => .inl (hsub.subset hd)
  | start => rw [State.onBr_br_same]; exact hq
  | clear => rw [State.onBr_br_same]; exact hq
  | settle =>
    rw [State.convert_br, State.onBr_br_same]
    exact hq
  | cull status kept gone count same =>
    rw [State.convertAll_br, State.onBr_br_same]
    exact hq.culled (by show kept.length ≤ _; omega) same

theorem QueuesOk.work {b : Branch} {R : List Byte → Prop} (h : Work b R s t) (hs : QueuesOk s) : QueuesOk t := by
  have addresses := map_address_of_configuration h.1.configuration
  refine ⟨hs.table.of_addresses addresses (h.1.records hs.table.records)
    (h.1.lastNode hs.table.records hs.table.lastNode), fun c => QueueOk.of_addresses ?_ addresses⟩
  by_cases hc : c = b
  · subst hc
    exact h.2.keeps (P := fun u => QueueOk s.nodes (u.br c).queue) (fun _ _ => QueueOk.move) (hs.queues c)
  · rw [h.1.others c hc]
    exact hs.queues c

/-- With the records, the branches and the last-node bytes as they were, table and queues are. -/
theorem QueuesOk.same (hs : QueuesOk s) (hnodes : t.nodes = s.nodes) (hbranches : t.branches = s.branches)
    (hlast : t.eu.lastNode = s.eu.lastNode) : QueuesOk t where
  table := hs.table.of_addresses (by rw [hnodes]) (by rw [hnodes]; exact hs.table.records)
    (by rw [hlast]; exact hs.table.lastNode)
  queues b := by
    have hbr : t.br b = s.br b := by rw [State.br, hbranches, State.br]
    rw [hnodes, hbr]
    exact hs.queues b

theorem QueuesOk.delivery (h : DeliveryStep s t) (hs : QueuesOk s) : QueuesOk t :=
  hs.same h.nodes h.branches h.lastNode

/-- A branch changed but for its queue. -/
theorem QueuesOk.onBr {b : Branch} {f : BranchState → BranchState} (hs : QueuesOk s)
    (hf : QueueOk s.nodes (f (s.br b)).queue) : QueuesOk (s.onBr b f) where
  table := ⟨hs.table.few, hs.table.ascending, hs.table.records, hs.table.lastNode⟩
  queues c := by
    by_cases hc : c = b
    · subst hc; rw [State.onBr_br_same]; exact hf
    · rw [State.onBr_br_other _ _ hc]; exact hs.queues c

/-- A record changed in place, its address kept. -/
theorem QueuesOk.onNode {a : Nat} {f : NodeRecord → NodeRecord} (hs : QueuesOk s)
    (address : ∀ r, findNode a s.nodes = some r → (f r).address = r.address)
    (ok : ∀ r, findNode a s.nodes = some r → r.Ok → (f r).Ok) : QueuesOk (s.onNode a f) := by
  have addresses : (s.onNode a f).nodes.map (·.address) = s.nodes.map (·.address) := map_updateNode _ address
  refine ⟨hs.table.of_addresses addresses (fun q hq => ?_) hs.table.lastNode,
    fun b => (hs.queues b).of_addresses addresses⟩
  rcases mem_updateNode hq with hq | ⟨r, hr, rfl⟩
  · exact hs.table.records q hq
  · exact ok r hr (hs.table.records r (findNode_some hr).1)

/-! ### WRITE NODE -/

/-- The values a WRITE NODE carries are in their ranges (R18). -/
structure NodeWrite.InRange (w : NodeWrite) : Prop where
  threshold     : ∀ n, w.threshold = some n → 1 ≤ n ∧ n ≤ 15
  divisor       : ∀ n, w.divisor = some n → 1 ≤ n ∧ n ≤ 255
  reportPeriod  : ∀ n, w.reportPeriod = some n → 1 ≤ n ∧ n ≤ 255
  compareLength : ∀ n, w.compareLength = some n → n ≤ 24
  lifetime      : ∀ n, w.lifetime = some n → 1 ≤ n ∧ n ≤ 255

theorem NodeWrite.inRange_empty : NodeWrite.empty.InRange where
  threshold _ h := by cases h
  divisor _ h := by cases h
  reportPeriod _ h := by cases h
  compareLength _ h := by cases h
  lifetime _ h := by cases h

theorem NodeWrite.InRange.add {w w' : NodeWrite} {i : FieldItem} (hw : w.InRange) (h : w.add i = some w') :
    w'.InRange := by
  unfold NodeWrite.add at h
  dsimp only at h
  split at h
  · rw [once_map_some h]; exact { hw with }
  · rw [once_map_some h]; exact { hw with }
  · rw [once_map_some h]; exact { hw with threshold := fun n e => (inRange_some e).2 }
  · rw [once_map_some h]; exact { hw with divisor := fun n e => (inRange_some e).2 }
  · rw [once_map_some h]; exact { hw with }
  · rw [once_map_some h]; exact { hw with reportPeriod := fun n e => (inRange_some e).2 }
  · rw [once_map_some h]; exact { hw with compareLength := fun n e => (inRange_some e).2.2 }
  · rw [once_map_some h]; exact { hw with lifetime := fun n e => (inRange_some e).2 }
  · cases h

theorem NodeWrite.inRange_of_gather {w : Walk} {d : NodeWrite}
    (h : w.gather NodeWrite.empty NodeWrite.add = some d) : d.InRange :=
  Walk.gather_keeps (P := NodeWrite.InRange) NodeWrite.inRange_empty (fun _ _ _ hw => hw.add) h

/-- The row of R21 a record is in: its state with its active field, its miss count and its countdown. -/
def NodeRecord.Row (r : NodeRecord) : Prop :=
  match r.health with
  | .inactive => r.active = false ∧ r.misses = 0 ∧ r.countdown = 0
  | .online => r.active = true ∧ r.misses = 0 ∧ r.countdown = 0
  | .suspect => r.active = true ∧ 1 ≤ r.misses ∧ r.misses < r.threshold ∧ r.countdown = 0
  | .offline => r.active = true ∧ r.misses = r.threshold ∧ 1 ≤ r.countdown ∧ r.countdown ≤ 255

section
variable {r : NodeRecord}

theorem NodeRecord.Ok.row (hr : r.Ok) : r.Row := by
  obtain ⟨-, hthreshold, -, -, -, -, -, inactive, offline, suspect, fresh, countdown⟩ := hr
  unfold NodeRecord.Row
  cases h : r.health <;> simp only [h, reduceCtorEq, true_iff, false_iff, or_true, or_false,
    if_true, if_false, forall_true_left, Bool.not_eq_false] at inactive offline suspect fresh countdown ⊢
  case inactive => exact ⟨inactive, fresh, countdown⟩
  case online => exact ⟨inactive, fresh, countdown⟩
  case suspect => exact ⟨inactive, suspect.1, suspect.2, countdown⟩
  case offline => exact ⟨inactive, offline, countdown⟩

/-- A record in a row of R21 with its fields in their ranges is as it should be. -/
theorem NodeRecord.Row.ok (row : r.Row) (address : 1 ≤ r.address ∧ r.address ≤ 239)
    (threshold : 1 ≤ r.threshold ∧ r.threshold ≤ 15) (divisor : 1 ≤ r.divisor ∧ r.divisor ≤ 255)
    (period : 1 ≤ r.reportPeriod ∧ r.reportPeriod ≤ 255) (compare : r.compareLength ≤ 24)
    (lifetime : 1 ≤ r.lifetime ∧ r.lifetime ≤ 255) (polls : r.pollsSince ≤ 255) : r.Ok := by
  unfold NodeRecord.Row at row
  refine ⟨address, threshold, divisor, period, compare, lifetime, polls, ?_, ?_, ?_, ?_, ?_⟩ <;>
    cases h : r.health <;> simp only [h] at row <;> simp [row] <;> omega

section
variable {w : NodeWrite} (hw : w.InRange)
include hw

/-- A record created is in a row of R21 (R28). -/
theorem NodeWrite.InRange.create {a : Nat} (low : 1 ≤ a) (high : a ≤ 239) : (w.create a).Ok := by
  refine NodeRecord.Row.ok ?_ ⟨low, high⟩
    (getD_of_forall (P := fun n => 1 ≤ n ∧ n ≤ 15) hw.threshold (by decide))
    (getD_of_forall (P := fun n => 1 ≤ n ∧ n ≤ 255) hw.divisor (by decide))
    (getD_of_forall (P := fun n => 1 ≤ n ∧ n ≤ 255) hw.reportPeriod (by decide))
    (getD_of_forall (P := fun n => n ≤ 24) hw.compareLength (by decide))
    (getD_of_forall (P := fun n => 1 ≤ n ∧ n ≤ 255) hw.lifetime (by decide)) (Nat.zero_le _)
  unfold NodeRecord.Row
  cases hactive : w.active.getD true <;> simp [NodeWrite.create, freshHealth, hactive]

/-- A record whose configuration a WRITE NODE changed, in a row of R21. -/
theorem NodeWrite.InRange.configured (hr : r.Ok) {health : Health} {misses countdown : Nat}
    (row : NodeRecord.Row { r.configure w with health := health, misses := misses, countdown := countdown }) :
    NodeRecord.Ok { r.configure w with health := health, misses := misses, countdown := countdown } :=
  row.ok hr.address (getD_of_forall (P := fun n => 1 ≤ n ∧ n ≤ 15) hw.threshold hr.threshold)
    (getD_of_forall (P := fun n => 1 ≤ n ∧ n ≤ 255) hw.divisor hr.divisor)
    (getD_of_forall (P := fun n => 1 ≤ n ∧ n ≤ 255) hw.reportPeriod hr.reportPeriod)
    (getD_of_forall (P := fun n => n ≤ 24) hw.compareLength hr.compareLength)
    (getD_of_forall (P := fun n => 1 ≤ n ∧ n ≤ 255) hw.lifetime hr.lifetime) hr.pollsSince

/-- A threshold written on an active record leaves it in a row of R21 (R31). -/
theorem NodeWrite.InRange.thresholdWritten {n : Nat} (hr : r.Ok) (active : r.active = true)
    (stays : (r.configure w).active = true) (ht : w.threshold = some n) : ((r.configure w).thresholdWritten n).Ok := by
  have row := hr.row
  have hn := hw.threshold n ht
  have hdivisor : 1 ≤ (r.configure w).divisor ∧ (r.configure w).divisor ≤ 255 :=
    getD_of_forall (P := fun n => 1 ≤ n ∧ n ≤ 255) hw.divisor hr.divisor
  have hthreshold : (r.configure w).threshold = n := by rw [NodeRecord.configure, ht]; rfl
  have hmisses : (r.configure w).misses = r.misses := rfl
  have hhealth : (r.configure w).health = r.health := rfl
  unfold NodeRecord.Row at row
  cases h : r.health <;> simp only [h] at row
  case inactive => rw [row.1] at active; cases active
  case online =>
    rw [NodeRecord.thresholdWritten_online (hhealth.trans h)]
    refine hw.configured (r := r) hr (health := r.health) (misses := r.misses) (countdown := r.countdown) ?_
    rw [NodeRecord.Row]
    simp only [h]
    exact ⟨stays, row.2⟩
  case suspect =>
    by_cases hlt : r.misses < n
    · rw [NodeRecord.thresholdWritten_suspect_lt (hhealth.trans h) hlt]
      refine hw.configured (r := r) hr (health := r.health) (misses := r.misses) (countdown := r.countdown) ?_
      rw [NodeRecord.Row]
      simp only [h]
      exact ⟨stays, row.2.1, hthreshold.symm ▸ hlt, row.2.2.2⟩
    · rw [NodeRecord.thresholdWritten_suspect_le (hhealth.trans h) (Nat.le_of_not_lt hlt)]
      exact hw.configured hr (health := .offline) ⟨stays, hthreshold.symm, hdivisor⟩
  case offline =>
    rw [NodeRecord.thresholdWritten_offline (hhealth.trans h)]
    refine hw.configured (r := r) hr (health := r.health) (misses := n) (countdown := r.countdown) ?_
    rw [NodeRecord.Row]
    simp only [h]
    exact ⟨stays, hthreshold.symm, row.2.2⟩

/-- A WRITE NODE leaves a record in a row of R21 (R29 to R31). -/
theorem NodeWrite.InRange.update (hr : r.Ok) : (r.update w).Ok := by
  have row := hr.row
  rcases hactive : r.active with _ | _ <;> rcases hnew : (r.configure w).active with _ | _
  · rw [NodeRecord.update_stays_inactive hactive hnew]
    have h := hr.inactive.2 hactive
    refine hw.configured (r := r) hr (health := r.health) (misses := r.misses) (countdown := r.countdown) ?_
    rw [NodeRecord.Row, h] at row
    rw [NodeRecord.Row]
    simp only [h]
    exact ⟨hnew, row.2⟩
  · rw [NodeRecord.update_activated hactive hnew]
    rw [NodeRecord.Row, hr.inactive.2 hactive] at row
    exact hw.configured hr (health := .online) (countdown := r.countdown) ⟨hnew, rfl, row.2.2⟩
  · rw [NodeRecord.update_deactivated hactive hnew]
    exact hw.configured hr (health := .inactive) ⟨hnew, rfl, rfl⟩
  · rcases ht : w.threshold with _ | n
    · rw [NodeRecord.update_no_threshold hactive hnew ht]
      refine hw.configured (r := r) hr (health := r.health) (misses := r.misses) (countdown := r.countdown) ?_
      have hthreshold : (r.configure w).threshold = r.threshold := by rw [NodeRecord.configure, ht]; rfl
      unfold NodeRecord.Row at row ⊢
      dsimp only
      rw [hnew, hthreshold]
      rwa [hactive] at row
    · rw [NodeRecord.update_threshold hactive hnew ht]
      exact hw.thresholdWritten hr hactive hnew ht

end
end

theorem NodeRecord.update_address (r : NodeRecord) (w : NodeWrite) : (r.update w).address = r.address := by
  unfold NodeRecord.update NodeRecord.thresholdWritten
  dsimp only
  split
  · rfl
  · rfl
  · rfl
  · split
    · rfl
    · split
      · rfl
      · rfl
      · split <;> rfl
      · rfl

/-! ### Requests and the trunk -/

theorem QueuesOk.updateRecord {r : NodeRecord} {w : NodeWrite} (hr : s.node? r.address = some r) (hw : w.InRange)
    (hs : QueuesOk s) : QueuesOk (s.updateRecord r w) := by
  have only : ∀ q, findNode r.address s.nodes = some q → q = r := fun q hq => Option.some.inj (hq.symm.trans hr)
  have changed : QueuesOk (s.onNode r.address fun _ => r.update w) :=
    hs.onNode (fun q hq => by rw [only q hq]; exact r.update_address w)
      fun q hq hok => by rw [only q hq] at hok; exact hw.update hok
  have high : r.address ≤ 239 := (hs.table.records r (findNode_some hr).1).address.2
  unfold State.updateRecord
  dsimp only
  split
  · refine ⟨changed.table.of_addresses rfl changed.table.records fun b => ?_, changed.queues⟩
    show (s.eu.lastNode.set (r.update w).branch r.address).get b ≤ 239
    by_cases hb : b = (r.update w).branch
    · subst hb; rw [Per.get_set_same]; exact high
    · rw [Per.get_set_other _ _ hb]; exact hs.table.lastNode b
  · exact changed

theorem QueuesOk.created {r : NodeRecord} (free : s.node? r.address = none) (room : s.nodes.length < maxRecords)
    (ok : r.Ok) (hs : QueuesOk s) : QueuesOk { s with nodes := insertNode r s.nodes } where
  table :=
    { few := by rw [length_insertNode]; exact room
      ascending := ascending_insertNode hs.table.ascending free
      records := fun q hq => by
        rcases mem_insertNode.1 hq with rfl | hq
        · exact ok
        · exact hs.table.records q hq
      lastNode := hs.table.lastNode }
  queues b :=
    { few := (hs.queues b).few
      young := (hs.queues b).young
      held := fun c hc => by
        have h := (hs.queues b).held c hc
        rw [findNode_isSome, List.mem_map] at h ⊢
        obtain ⟨q, hq, ha⟩ := h
        exact ⟨q, mem_insertNode.2 (.inr hq), ha⟩ }

/-- The queue of one branch once the entries for a node are purged (R100). -/
theorem State.purgeQueue_queue (s : State) (a : Nat) (b c : Branch) :
    ((s.purgeQueue a b).br c).queue =
      if c = b then (s.br c).queue.filter fun q => q.node != a else (s.br c).queue := by
  rw [State.purgeQueue, State.convertAll_br]
  by_cases h : c = b
  · subst h; rw [State.onBr_br_same, if_pos rfl]
  · rw [State.onBr_br_other _ _ h, if_neg h]

theorem State.purgeQueue_nodes (s : State) (a : Nat) (b : Branch) : (s.purgeQueue a b).nodes = s.nodes := by
  rw [State.purgeQueue_eq]
  rfl

theorem State.purgeQueue_lastNode (s : State) (a : Nat) (b : Branch) : (s.purgeQueue a b).eu = s.eu := by
  rw [State.purgeQueue_eq]
  rfl

theorem State.purgeAll_queue (s : State) (a : Nat) (b : Branch) :
    ((s.purgeAll a).br b).queue = (s.br b).queue.filter fun q => q.node != a := by
  cases b <;> simp [State.purgeAll, State.purgeQueue_queue]

/-- A record deleted takes its queued commands with it (R38). -/
theorem QueuesOk.deleted (a : Nat) (hs : QueuesOk s) :
    QueuesOk (State.purgeAll { s with nodes := removeNode a s.nodes } a) := by
  have hsub := removeNode_sublist a s.nodes
  have hnodes : (State.purgeAll { s with nodes := removeNode a s.nodes } a).nodes = removeNode a s.nodes := by
    simp [State.purgeAll, State.purgeQueue_nodes]
  have heu : (State.purgeAll { s with nodes := removeNode a s.nodes } a).eu = s.eu := by
    simp [State.purgeAll, State.purgeQueue_lastNode]
  refine ⟨⟨?_, ?_, ?_, ?_⟩, fun b => ?_⟩
  · rw [hnodes]; exact hsub.length_le.trans hs.table.few
  · rw [hnodes]; exact hs.table.ascending.sublist hsub
  · rw [hnodes]; exact fun r hr => hs.table.records r (hsub.subset hr)
  · rw [heu]; exact hs.table.lastNode
  · have hq := hs.queues b
    rw [hnodes, State.purgeAll_queue]
    refine ⟨(List.length_filter_le _ _).trans hq.few, fun c hc => hq.young c (List.mem_of_mem_filter hc), fun c hc => ?_⟩
    obtain ⟨hmem, hother⟩ := List.mem_filter.1 hc
    rw [findNode_removeNode_other (by simpa using hother)]
    exact hq.held c hmem

theorem QueuesOk.carried (h : Carried s t) (hs : QueuesOk s) : QueuesOk t := by
  cases h with
  | branch b w d => exact QueuesOk.work (work_applyBranch (R := fun _ => True) d) (hs.onBr (hs.queues b))
  | updated r hr w d h => exact hs.updateRecord hr (NodeWrite.inRange_of_gather h)
  | created a low high free room w d h => exact hs.created free room ((NodeWrite.inRange_of_gather h).create low high)
  | header b w d h =>
    refine hs.onBr ?_
    unfold BranchState.onStandby
    split <;> exact hs.queues b
  | entry b i w e h =>
    refine hs.onBr ?_
    unfold BranchState.onStandby
    split <;> exact hs.queues b
  | deleted a => exact hs.deleted a
  | healthReset a => exact hs.onNode (fun _ _ => rfl) fun _ _ ok => ok.healthReset
  | purged a => exact keeps_purgeAll (R := fun _ => True) (fun _ _ _ => QueuesOk.work) a hs
  | swapAsked b => exact hs.onBr (f := fun B => { B with swapPending := true }) (hs.queues b)
  | swapped b => exact QueuesOk.work (work_takeSwap (R := fun _ => True)) hs
  | mode b m => exact QueuesOk.work (work_requestMode (R := fun _ => True) m) hs
  | flags g set => exact hs.same rfl rfl (by cases g <;> rfl)
  | counters g =>
    cases g with
    | branch b => exact hs.onBr (f := fun B => { B with counters := BranchCounters.zero }) (hs.queues b)
    | device => exact hs.same rfl rfl rfl
  | _ => exact hs.same rfl rfl rfl

theorem QueuesOk.takeRelay (node : Nat) (tag : Byte) (payload : List Byte) (hs : QueuesOk s) :
    QueuesOk (s.takeRelay node tag payload) := by
  rcases s.takeRelay_cases node tag payload with h | ⟨-, status, h⟩ | ⟨r, -, -, hr, -, -, -, hroom, h⟩ <;> rw [h]
  · exact hs.same rfl rfl rfl
  · exact hs.same rfl rfl rfl
  · have hlifetime := (hs.table.records r (findNode_some hr).1).lifetime
    have hq := hs.queues r.branch
    refine QueuesOk.work (work_accept (R := fun _ => True) _) (QueuesOk.onBr (s := s.reserve) (hs.same rfl rfl rfl) ?_)
    refine ⟨?_, fun c hc => ?_, fun c hc => ?_⟩
    · rw [List.length_append]; exact hroom
    · rcases List.mem_append.1 hc with hc | hc
      · exact hq.young c hc
      · rw [List.mem_singleton.1 hc]; exact hlifetime
    · rcases List.mem_append.1 hc with hc | hc
      · exact hq.held c hc
      · rw [List.mem_singleton.1 hc]
        show (findNode node s.nodes).isSome = true
        rw [show findNode node s.nodes = some r from hr]
        rfl

theorem QueuesOk.respond (tag : Byte) (r : Reply) (hs : QueuesOk s) : QueuesOk (s.respond tag r) := by
  rcases s.respond_cases tag r with ⟨-, -, h⟩ | ⟨-, h⟩ <;> rw [h] <;> exact hs.same rfl rfl rfl

theorem queueOk_nil (l : List NodeRecord) : QueueOk l [] :=
  ⟨Nat.zero_le _, fun _ h => (nomatch h), fun _ h => (nomatch h)⟩

theorem QueuesOk.restartedPart (hs : QueuesOk s) : QueuesOk s.restartedPart where
  table := hs.table.of_addresses (by show (s.nodes.map NodeRecord.restarted).map _ = _; rw [List.map_map]; rfl)
    (fun r hr => by
      obtain ⟨q, hq, rfl⟩ := List.mem_map.1 hr
      exact (hs.table.records q hq).restarted)
    fun b => by cases b <;> exact Nat.zero_le _
  queues b := by
    have hbr : s.restartedPart.br b = (s.br b).restarted := Per.get_map ..
    rw [hbr]
    exact queueOk_nil _

theorem queuesOk_hardReset (cause : RestartCause) (sa : Fin 8) (tr : Fin 4) : QueuesOk (s.hardReset cause sa tr) where
  table := ⟨Nat.zero_le _, .nil, fun _ h => (nomatch h), fun b => by cases b <;> exact Nat.zero_le _⟩
  queues b := by
    have hbr : (s.hardReset cause sa tr).br b = BranchState.reset (s.br b).supply := Per.get_map ..
    rw [hbr]
    exact queueOk_nil _

theorem kept_queuesOk : Kept (fun _ _ => True) QueuesOk where
  reset _ _ _ _ _ := queuesOk_hardReset ..
  hunt _ _ hs := hs.same rfl rfl rfl
  begin _ _ _ hs := hs.same rfl rfl rfl
  append _ _ _ _ _ _ hs := hs.same rfl rfl rfl
  choice _ hs := hs.delivery deliveryStep_choice
  recover _ hs := hs.delivery deliveryStep_recover
  ack _ next payload _ hs := hs.delivery (deliveryStep_takeAck next payload)
  relay _ node tag payload := QueuesOk.takeRelay node tag payload
  manage _ tag r hs := keeps_manage tag r hs (fun _ _ hs => hs.same rfl rfl rfl) (fun _ _ => QueuesOk.carried)
    fun _ => QueuesOk.respond tag _
  restart _ hs := keeps_warmRestart (R := fun _ => True) (fun _ _ _ => QueuesOk.work) hs.restartedPart
  free _ hs := hs.same rfl rfl rfl
  expire _ _ hs := hs.delivery deliveryStep_expire
  branch _ _ c b _ row h hs := keeps_worked (R := fun _ => True) hs (fun _ _ _ _ _ => trivial) (bytesIn_any _ c) row h
    (fun _ hs => hs.onBr (hs.queues b)) (fun _ _ _ => QueuesOk.work) fun _ hs => hs.delivery deliveryStep_choice

theorem QueuesOk.tick (hs : QueuesOk s) : QueuesOk s.tick where
  table := hs.table.of_addresses rfl hs.table.records hs.table.lastNode
  queues b := by
    have hbr : s.tick.br b = (s.br b).tick := Per.get_map ..
    rw [hbr]
    exact hs.queues b

end
end Sys2Proof.Machine

/-! ### The statements -/

namespace Sys2Proof.Invariants
open Sys2Proof.Machine

/-- Settles O3: every meaning answers a next state, and no operation reaches the queue of commands or the counter. -/
theorem everyCommandAnswersNext : Obligations.EveryCommandAnswersNext := by
  intro c s
  obtain ⟨t, h⟩ := exec_next c s
  exact ⟨t, h, exec_sameClock h⟩

/-- Settles O54: records change within the rows of R21, and a queue loses entries, ages them short of their lifetime, or
takes one for a record that is held. -/
theorem queuesKept : Obligations.QueuesKept := by
  intro s t hs h
  rcases step_cases h with ⟨-, rfl⟩ | ⟨c, rest, -, hexec⟩
  · exact hs.tick
  · exact kept_queuesOk.exec trivial hexec (hs.same rfl rfl rfl)

end Sys2Proof.Invariants
end

section
/-! PROOFS. Frames: what the trunk receiver holds is the beginning of a frame, and every payload the part holds fits its
line (R8, R10, R16, R115). -/
namespace Sys2Proof.Machine

section
variable {s t : State}

/-! ### The trunk receiver -/

theorem ReceiverOk.same (hs : ReceiverOk s) (h : t.receiver = s.receiver) : ReceiverOk t := by
  rw [ReceiverOk, h]
  exact hs

theorem Carried.receiver (h : Carried s t) : t.receiver = s.receiver := by
  have purge : ∀ (u : State) a, (u.purgeAll a).receiver = u.receiver := fun u a =>
    keeps_purgeAll (R := fun _ => True) (P := fun v => v.receiver = u.receiver) (fun _ _ _ h k => h.1.receiver.trans k) a
      rfl
  cases h with
  | branch b w d => exact (work_applyBranch (R := fun _ => True) d).1.receiver
  | updated r hr w d =>
    unfold State.updateRecord
    dsimp only
    split <;> rfl
  | deleted a => exact purge _ a
  | purged a => exact purge _ a
  | swapped b => exact branchStep_takeSwap.receiver
  | mode b m => exact (branchStep_requestMode m).receiver
  | counters g => cases g <;> rfl
  | _ => rfl

theorem ReceiverOk.takeRelay (node : Nat) (tag : Byte) (payload : List Byte) (hs : ReceiverOk s) :
    ReceiverOk (s.takeRelay node tag payload) := by
  rcases s.takeRelay_cases node tag payload with h | ⟨-, status, h⟩ | ⟨r, -, -, -, -, -, -, -, h⟩ <;> rw [h]
  · exact hs.same rfl
  · exact hs.same rfl
  · exact hs.same (work_accept (R := fun _ => True) _).1.receiver

theorem ReceiverOk.respond (tag : Byte) (r : Reply) (hs : ReceiverOk s) : ReceiverOk (s.respond tag r) := by
  rcases s.respond_cases tag r with ⟨-, -, h⟩ | ⟨-, h⟩ <;> rw [h] <;> exact hs.same rfl

theorem kept_receiverOk : Kept (fun _ _ => True) ReceiverOk where
  reset _ _ _ _ _ := trivial
  hunt _ _ _ := trivial
  begin _ _ _ _ := ⟨Nat.le_refl 1, trivial⟩
  append s taken v more hreceiver hmore hs := by
    rw [ReceiverOk, hreceiver] at hs
    exact partialFrame_of_more hs hmore
  choice _ hs := hs.same deliveryStep_choice.receiver
  recover _ hs := hs.same deliveryStep_recover.receiver
  ack _ next payload _ hs := hs.same (deliveryStep_takeAck next payload).receiver
  relay _ node tag payload := ReceiverOk.takeRelay node tag payload
  manage _ tag r hs := keeps_manage tag r hs (fun _ _ hs => hs) (fun _ _ h hs => hs.same h.receiver)
    fun _ => ReceiverOk.respond tag _
  restart _ _ := keeps_warmRestart (R := fun _ => True) (P := ReceiverOk) (fun _ _ _ h hs => hs.same h.1.receiver) trivial
  free _ hs := hs
  expire _ _ hs := hs.same deliveryStep_expire.receiver
  branch _ _ c _ _ row h hs := keeps_worked (R := fun _ => True) hs (fun _ _ _ _ _ => trivial) (bytesIn_any _ c) row h
    (fun _ hs => hs) (fun _ _ _ h hs => hs.same h.1.receiver) fun _ hs => hs.same deliveryStep_choice.receiver

/-! ### What a branch holds -/

/-- The bytes of a reply fit the branch they came by (R8). -/
def ReplyFits (reply : List Byte) : Prop := reply.length ≤ branchLenLimit

theorem PollWork.lineFrame_fits {w : PollWork}
    (h : ∀ toggle c, w.frame = .cmd toggle c → c.payload.length ≤ branchLenLimit) :
    (LineUnit.sending w.lineFrame).Fits := by
  unfold PollWork.lineFrame
  split
  · exact Nat.zero_le _
  · exact h _ _ ‹_›

theorem BranchState.Fits.of_same {A B : BranchState} (h : A.Fits) (line : B.line.Fits)
    (queue : ∀ c ∈ B.queue, c.payload.length ≤ branchLenLimit) (slot : B.slot = A.slot) : B.Fits where
  line := line
  queue := queue
  inFlight c hc := h.inFlight c (by rwa [BranchState.inFlight, slot] at hc)
  noReply phase w hw := h.noReply phase w (by rwa [BranchState.pollWork, slot] at hw)

/-- A branch at rest holds its queue alone. -/
theorem BranchState.Fits.of_rest {B : BranchState} (slot : B.slot = none) (line : B.line.Fits)
    (queue : ∀ c ∈ B.queue, c.payload.length ≤ branchLenLimit) : B.Fits where
  line := line
  queue := queue
  inFlight c hc := by rw [BranchState.inFlight, slot] at hc; cases hc
  noReply phase w hw := by rw [BranchState.pollWork, slot] at hw; cases hw

/-- A branch that works on a poll or a command that fits, with no reply kept. -/
theorem BranchState.Fits.of_work {B : BranchState} {rate : LineRate} {phase : Phase} {w : PollWork}
    (slot : B.slot = some { rate := rate, phase := phase, work := .poll w }) (line : B.line.Fits)
    (queue : ∀ c ∈ B.queue, c.payload.length ≤ branchLenLimit)
    (command : ∀ toggle c, w.frame = .cmd toggle c → c.payload.length ≤ branchLenLimit) (reply : w.reply = none) :
    B.Fits where
  line := line
  queue := queue
  inFlight c hc := by
    have work := BranchState.pollWork_eq slot
    cases frame : w.frame with
    | poll => rw [BranchState.inFlight_poll work frame] at hc; cases hc
    | cmd toggle d => rw [BranchState.inFlight_cmd work frame] at hc; cases hc; exact command toggle c frame
  noReply phase' w' hw := by
    rw [BranchState.pollWork_eq slot] at hw
    cases hw
    exact reply

/-- A branch whose slot has just begun without a command. -/
theorem BranchState.Fits.of_fresh {B : BranchState} {slot : SlotRecord} (h : B.slot = some slot)
    (fresh : slot.work.Fresh) (line : B.line.Fits)
    (queue : ∀ c ∈ B.queue, c.payload.length ≤ branchLenLimit) : B.Fits where
  line := line
  queue := queue
  inFlight c hc := by
    obtain ⟨rate, phase, work⟩ := slot
    cases work with
    | poll w => rw [BranchState.inFlight_poll (BranchState.pollWork_eq h) (fresh w rfl).1] at hc; cases hc
    | sync => rw [BranchState.inFlight, h] at hc; cases hc
    | gap n => rw [BranchState.inFlight, h] at hc; cases hc
  noReply phase w hw := by
    obtain ⟨rate, hslot⟩ := BranchState.pollWork_some hw
    rw [h] at hslot
    cases hslot
    exact (fresh w rfl).2

/-! ### Moves of a branch -/

/-- A branch changed, what it holds fitting still. -/
theorem FramesFit.onBr {b : Branch} {f : BranchState → BranchState} (hs : FramesFit s) (hf : (f (s.br b)).Fits) :
    FramesFit (s.onBr b f) where
  pending := hs.pending
  pool := hs.pool
  transmitter := hs.transmitter
  branches c := by
    by_cases hc : c = b
    · subst hc; rw [State.onBr_br_same]; exact hf
    · rw [State.onBr_br_other _ _ hc]; exact hs.branches c
  lastValues := hs.lastValues

/-- A record changed, its last value kept or one that fits. -/
theorem FramesFit.onNode {a : Nat} {f : NodeRecord → NodeRecord} (hs : FramesFit s)
    (last : ∀ r v, (f r).lastValue = some v → r.lastValue = some v ∨ v.length ≤ branchLenLimit) :
    FramesFit (s.onNode a f) where
  pending := hs.pending
  pool := hs.pool
  transmitter := hs.transmitter
  branches := hs.branches
  lastValues q hq v hv := by
    rcases mem_updateNode hq with hq | ⟨r, hr, rfl⟩
    · exact hs.lastValues q hq v hv
    · rcases last r v hv with h | h
      · exact hs.lastValues r (findNode_some hr).1 v h
      · exact h

/-- Entries that fit the trunk join the pool. -/
theorem FramesFit.joinPool {entries : List Entry} {credits : Nat} (hs : FramesFit s)
    (new : ∀ e ∈ entries, 2 ≤ e.payload.length ∧ e.payload.length ≤ trunkLenLimit) :
    FramesFit { s with pool := s.pool ++ entries, credits := credits } where
  pending := hs.pending
  pool e he := (List.mem_append.1 he).elim (hs.pool e) (new e)
  transmitter := hs.transmitter
  branches := hs.branches
  lastValues := hs.lastValues

theorem FramesFit.addEntry {c : UplinkClass} {p : List Byte} (hs : FramesFit s)
    (fits : 2 ≤ p.length ∧ p.length ≤ trunkLenLimit) : FramesFit (s.addEntry c p) :=
  hs.joinPool (credits := s.credits) fun e he => by rw [List.mem_singleton.1 he]; exact fits

theorem resultPayload_length (tag : Byte) (node : Nat) (status : ResultStatus) (reply : List Byte) :
    (resultPayload tag node status reply).length = 4 + reply.length := by
  simp only [resultPayload, List.length_cons]
  omega

theorem reportPayload_length (node : Nat) (b : Branch) (number : Half) (reply : List Byte) :
    (reportPayload node b number reply).length = 5 + reply.length := by
  simp only [reportPayload, two, List.length_cons, List.length_append, List.length_nil]
  omega

theorem FramesFit.convert {tag : Byte} {node : Nat} {status : ResultStatus} {reply : List Byte} (hs : FramesFit s)
    (fits : reply = [] ∨ ReplyFits reply) : FramesFit (s.convert tag node status reply) := by
  have hlen : reply.length ≤ 24 := fits.elim (fun h => by rw [h]; exact Nat.zero_le _) id
  refine hs.joinPool (credits := s.credits - 1) fun e he => ?_
  rw [List.mem_singleton.1 he]
  show 2 ≤ (resultPayload _ _ _ _).length ∧ (resultPayload _ _ _ _).length ≤ 32
  rw [resultPayload_length]
  omega

theorem FramesFit.convertAll {status : ResultStatus} {l : List Command} (hs : FramesFit s) :
    FramesFit (s.convertAll status l) := by
  rw [State.convertAll_eq]
  refine hs.joinPool fun e he => ?_
  obtain ⟨c, -, rfl⟩ := List.mem_map.1 he
  show 2 ≤ (4 : Nat) ∧ (4 : Nat) ≤ 32
  decide

theorem FramesFit.move {b : Branch} {idle : Prop} (h : Move b ReplyFits idle s t) (hs : FramesFit s) : FramesFit t := by
  have hb := hs.branches b
  cases h with
  | tidy f queue slot line =>
    exact hs.onBr (hb.of_same (by rw [line]; exact hb.line) (by rw [queue]; exact hb.queue) slot)
  | events eu dropped => exact { hs with }
  | record a f address last => exact hs.onNode fun r v hv => .inl (by rwa [last r] at hv)
  | report a number reply bytes room =>
    have hlen : reply.length ≤ 24 := bytes
    refine (hs.addEntry (c := .report) ?_).onNode fun r v hv => ?_
    · show 2 ≤ _ ∧ _ ≤ 32
      rw [reportPayload_length]
      omega
    · cases hv
      exact .inr bytes
  | goOn phase phase' rate w w' line work frame reply sends =>
    have command : ∀ toggle c, w'.frame = .cmd toggle c → c.payload.length ≤ branchLenLimit := fun toggle c hc =>
      hb.inFlight c (BranchState.inFlight_cmd work (frame.symm.trans hc))
    refine hs.onBr (BranchState.Fits.of_work rfl ?_ hb.queue command (reply.trans (hb.noReply phase w work)))
    rcases sends with rfl | rfl | rfl
    · trivial
    · trivial
    · exact PollWork.lineFrame_fits command
  | hear taken fits =>
    exact hs.onBr (f := fun B => { B with line := .receiving taken }) (hb.of_same (fits hb.line) hb.queue rfl)
  | launch before after c toggle rate w queue free frame reply =>
    have held : ∀ d ∈ before ++ c :: after, d.payload.length ≤ branchLenLimit := by rw [← queue]; exact hb.queue
    have command : ∀ toggle c, w.frame = .cmd toggle c → c.payload.length ≤ branchLenLimit := fun _ _ h => by
      rw [frame] at h
      cases h
      exact held c (by simp)
    refine hs.onBr (BranchState.Fits.of_work rfl (PollWork.lineFrame_fits command) (fun d hd => held d ?_) command reply)
    exact ((List.sublist_cons_self c after).append_left before).subset hd
  | start slot line free fresh fits => exact hs.onBr (BranchState.Fits.of_fresh rfl fresh (fits hb.line) hb.queue)
  | clear => exact hs.onBr (BranchState.Fits.of_rest rfl trivial hb.queue)
  | settle c status reply flight bytes =>
    exact FramesFit.convert (hs.onBr (f := fun B => { B with slot := .none, line := .quiet })
      (BranchState.Fits.of_rest rfl trivial hb.queue)) bytes
  | cull status kept gone count same =>
    refine FramesFit.convertAll (hs.onBr (f := fun B => { B with queue := kept })
      (hb.of_same hb.line (fun c hc => ?_) rfl))
    rcases same c hc with h | ⟨d, hd, rfl, -⟩
    · exact hb.queue c h
    · exact hb.queue d hd

theorem FramesFit.work {b : Branch} (h : Work b ReplyFits s t) (hs : FramesFit s) : FramesFit t :=
  h.2.keeps (fun _ _ => FramesFit.move) hs

end
end Sys2Proof.Machine
end

section
/-! PROOFS. Frames, continued: the Delivery Unit's frames, the responses of requests, and the commands that a tick brings;
then the statement. -/
namespace Sys2Proof.Machine

section
variable {s t : State}

/-! ### The Delivery Unit -/

theorem FramesFit.transmit {e : Entry} {q : BitVec 4} (hs : FramesFit s) (he : e ∈ s.pool) :
    ∀ f, some (s.uplinkFrame e q) = some f → f.payload.length ≤ trunkLenLimit ∧ f.checkAgrees = true := by
  rintro _ ⟨⟩
  exact ⟨(hs.pool e he).2, sealed_checkAgrees ..⟩

theorem FramesFit.resend (p : BitVec 4) (hs : FramesFit s) : FramesFit (s.resend p) := by
  unfold State.resend
  split
  · exact hs
  · rename_i e he
    exact { hs with transmitter := hs.transmit (List.mem_of_find?_eq_some he) }

theorem FramesFit.firstTransmission {c : UplinkClass} (hs : FramesFit s) (h : s.firstTransmission c = some t) :
    FramesFit t := by
  obtain ⟨pre, e, post, hpool, -, -, rfl⟩ := State.firstTransmission_some h
  have held : e ∈ s.pool := by rw [hpool]; simp
  refine { hs with pool := fun x hx => ?_, transmitter := hs.transmit held }
  rcases List.mem_append.1 hx with hx | hx
  · exact hs.pool x (by rw [hpool]; exact List.mem_append_left _ hx)
  · rcases List.mem_cons.1 hx with rfl | hx
    · exact hs.pool e held
    · exact hs.pool x (by rw [hpool]; exact List.mem_append_right _ (List.mem_cons_of_mem _ hx))

/-- A snapshot carries two bytes, and two more for each of at most five groups (R131). -/
theorem EventUnit.snapshot_length (eu : EventUnit) : 2 ≤ eu.snapshot.length ∧ eu.snapshot.length ≤ 12 := by
  have groups : eu.pendingGroups.length ≤ 5 := List.length_filter_le ..
  have bytes : (eu.pendingGroups.flatMap fun g => [(eu.group g.1).flags, eu.lastNodeByte g.1]).length =
      2 * eu.pendingGroups.length := by
    rw [List.length_flatMap]
    simp [Nat.mul_comm]
  rw [EventUnit.snapshot, List.length_cons, List.length_cons, bytes]
  omega

theorem FramesFit.choice (hs : FramesFit s) : FramesFit s.choice := by
  refine keeps_choice hs (fun p _ _ => FramesFit.resend p) (fun u v c _ _ _ _ _ hu h => hu.firstTransmission h)
    fun _ hs => ?_
  obtain ⟨low, high⟩ := s.eu.snapshot_length
  exact { hs.addEntry (c := .alert) ⟨low, high.trans (by decide)⟩ with }

theorem FramesFit.recover (hs : FramesFit s) : FramesFit s.recover := by
  rcases s.recover_cases with ⟨-, h⟩ | ⟨-, -, h⟩ | ⟨-, -, h⟩ <;> rw [h]
  · exact hs
  · exact FramesFit.choice { hs with }
  · exact FramesFit.choice { hs with }

theorem FramesFit.takeAck (next : Byte) (payload : List Byte) (hs : FramesFit s) : FramesFit (s.takeAck next payload) := by
  have stale : FramesFit s.staleAck := { hs with }
  unfold State.takeAck
  dsimp only
  split
  · exact stale
  · split
    · exact hs
    · split
      · exact hs
      · split
        · exact { hs with pool := fun e he => hs.pool e (List.mem_of_mem_filter he) }
        · exact stale

theorem FramesFit.expire (hs : FramesFit s) : FramesFit s.expire := by
  unfold State.expire
  dsimp only
  split <;> exact { hs with }

/-! ### Relays -/

theorem FramesFit.takeRelay (node : Nat) (tag : Byte) (payload : List Byte) (hs : FramesFit s) :
    FramesFit (s.takeRelay node tag payload) := by
  rcases s.takeRelay_cases node tag payload with h | ⟨-, status, h⟩ | ⟨r, -, hlen, -, -, -, -, -, h⟩ <;> rw [h]
  · exact { hs with }
  · exact hs.addEntry (by rw [resultPayload_length]; decide)
  · have reserved : FramesFit s.reserve := { hs with }
    refine FramesFit.work (work_accept _) (reserved.onBr (f := fun B => { B with queue := B.queue ++ [_] }) ?_)
    have hb := hs.branches r.branch
    refine hb.of_same hb.line (fun c hc => ?_) rfl
    rcases List.mem_append.1 hc with hc | hc
    · exact hb.queue c hc
    · rw [List.mem_singleton.1 hc]; exact hlen

/-! ### Responses -/

/-- The data of a response: at most 30 bytes beside its tag and status (R8, R130). -/
def Reply.Short (r : Reply) : Prop := r.data.length ≤ 30

theorem Reply.short_refused (status : Status) : (Reply.refused status).Short := Nat.zero_le _

theorem plainRead_short {key item selector : Byte} {data : List Byte} (h : data.length ≤ 30) :
    (plainRead key item selector data).Short := by
  unfold plainRead
  split
  · exact Reply.short_refused _
  · split
    · exact Reply.short_refused _
    · exact h

theorem BranchState.data_length (B : BranchState) : B.data.length = 15 := rfl

theorem NodeRecord.recordPart_length (r : NodeRecord) : r.recordPart.length = 20 := by
  unfold NodeRecord.recordPart NodeRecord.lastShape
  split <;> rfl

theorem NodeRecord.valuePart_length (r : NodeRecord) : r.valuePart.length = 3 + (r.lastValue.getD []).length := by
  unfold NodeRecord.valuePart NodeRecord.lastShape
  split <;> simp only [List.length_append, List.length_cons, List.length_nil]

theorem SlotEntry.data_length (e : SlotEntry) : e.data.length = 6 := by cases e <;> rfl

theorem mem_of_nextNode {a : Nat} {l : List NodeRecord} {r : NodeRecord} (h : nextNode a l = some r) : r ∈ l := by
  induction l with
  | nil => cases h
  | cons q l ih =>
    unfold nextNode at h
    split at h
    · cases h; exact List.mem_cons_self
    · exact List.mem_cons_of_mem _ (ih h)

theorem Reply.short_ite {p : Prop} [Decidable p] {q r : Reply} (hq : q.Short) (hr : r.Short) :
    (if p then q else r).Short := by
  split
  · exact hq
  · exact hr

theorem readNode_short (values : ∀ r ∈ s.nodes, ∀ v, r.lastValue = some v → v.length ≤ branchLenLimit)
    (key item selector : Byte) : (readNode key item selector s).Short := by
  have parts : ∀ r ∈ s.nodes, (Reply.with (if selector.getLsbD 0 then r.valuePart else r.recordPart)).Short :=
    fun r hr => by
      show (if _ then _ else _ : List Byte).length ≤ 30
      split
      · have : (r.lastValue.getD []).length ≤ 24 :=
          getD_of_forall (P := fun v : List Byte => v.length ≤ 24) (values r hr) (Nat.zero_le _)
        rw [NodeRecord.valuePart_length]
        omega
      · rw [NodeRecord.recordPart_length]
        decide
  unfold readNode
  dsimp only
  refine Reply.short_ite (Reply.short_refused _) (Reply.short_ite (Reply.short_refused _) ?_)
  rcases hfound : if selector.getLsbD 1 then nextNode key.toNat s.nodes else s.node? key.toNat with _ | r
  · exact Reply.short_refused _
  · refine parts r ?_
    split at hfound
    · exact mem_of_nextNode hfound
    · exact (findNode_some hfound).1

theorem readSched_short (key item selector : Byte) : (readSched key item selector s).Short := by
  unfold readSched
  split
  · exact Reply.short_refused _
  · dsimp only
    split
    · exact Reply.short_refused _
    · split
      · exact Reply.short_refused _
      · split
        · exact Nat.le_of_ble_eq_true rfl
        · show (SlotEntry.data _).length ≤ 30
          rw [SlotEntry.data_length]
          decide

theorem readQueue_short (key item selector : Byte) : (readQueue key item selector s).Short := by
  unfold readQueue
  split
  · exact Reply.short_refused _
  · split
    · exact Reply.short_refused _
    · split
      · exact Reply.short_refused _
      · split
        · exact Reply.short_refused _
        · exact Nat.le_of_ble_eq_true rfl

theorem readTable_short (values : ∀ r ∈ s.nodes, ∀ v, r.lastValue = some v → v.length ≤ branchLenLimit) (table : Table)
    (key item selector : Byte) : (readTable table key item selector s).Short := by
  cases table with
  | device => exact plainRead_short (Nat.le_of_ble_eq_true rfl)
  | branch =>
    unfold readTable readBranch
    dsimp only
    split
    · exact Reply.short_refused _
    · exact plainRead_short (by rw [BranchState.data_length]; decide)
  | node => exact readNode_short values key item selector
  | sched => exact readSched_short key item selector
  | queue => exact readQueue_short key item selector
  | flags =>
    unfold readTable readFlags
    dsimp only
    split
    · exact Reply.short_refused _
    · exact plainRead_short (Nat.le_of_ble_eq_true rfl)
  | counters =>
    unfold readTable readCounters
    dsimp only
    split
    · exact Reply.short_refused _
    · exact plainRead_short (Nat.le_of_ble_eq_true rfl)
    · exact plainRead_short (Nat.le_of_ble_eq_true rfl)
  | pool => exact plainRead_short (Nat.le_of_ble_eq_true rfl)

theorem writeTable_short (table : Table) (key item : Byte) (fields : List Byte) :
    (writeTable table key item fields s).2.Short := by
  unfold writeTable
  split
  · exact Reply.short_refused _
  · split
    · exact Reply.short_refused _
    · split
      · unfold writeDevice
        repeat' split
        all_goals exact Nat.zero_le _
      · unfold writeBranch
        repeat' split
        all_goals exact Nat.zero_le _
      · unfold writeNode
        repeat' split
        all_goals exact Nat.zero_le _
      · unfold writeSched
        repeat' split
        all_goals exact Nat.zero_le _
      all_goals exact Reply.short_refused _

theorem onRecord_short (a : Byte) (act : State → State) : (onRecord a act s).2.Short := by
  rcases onRecord_cases a act s with ⟨-, e⟩ | ⟨-, -, -, e⟩ | ⟨-, -, -, -, e⟩ <;> rw [e] <;> exact Nat.zero_le _

/-- Every request is answered with no more data than a trunk frame carries (R8, R130). -/
theorem carryOut_short (values : ∀ r ∈ s.nodes, ∀ v, r.lastValue = some v → v.length ≤ branchLenLimit) (r : Request) :
    (carryOut r s).2.Short := by
  cases r with
  | read table key item selector =>
    rw [carryOut]
    split
    · exact Reply.short_refused _
    · exact readTable_short values ..
  | write table key item fields =>
    rw [carryOut]
    split
    · split <;> exact Reply.short_refused _
    · exact writeTable_short ..
  | deleteNode a => exact onRecord_short ..
  | resetHealth a => exact onRecord_short ..
  | purge a => exact onRecord_short ..
  | swap branch =>
    rw [carryOut, requestSwap]
    repeat' split
    all_goals exact Nat.zero_le _
  | setMode branch mode =>
    rw [carryOut, requestSetMode]
    repeat' split
    all_goals exact Nat.zero_le _
  | clearFlags group set =>
    rw [carryOut, requestClearFlags]
    repeat' split
    all_goals exact Nat.zero_le _
  | clearCounters group =>
    rw [carryOut, requestClearCounters]
    split <;> exact Nat.zero_le _
  | restart => exact Nat.zero_le _
  | malformed => exact Nat.zero_le _

theorem FramesFit.respond {tag : Byte} {r : Reply} (short : r.Short) (hs : FramesFit s) :
    FramesFit (s.respond tag r) := by
  rcases s.respond_cases tag r with ⟨-, -, h⟩ | ⟨-, h⟩ <;> rw [h]
  · have hlen : r.data.length ≤ 30 := short
    refine hs.addEntry ?_
    show 2 ≤ r.data.length + 1 + 1 ∧ r.data.length + 1 + 1 ≤ 32
    omega
  · exact { hs with }

end
end Sys2Proof.Machine
end

section
/-! PROOFS. Frames: what every command and every tick keep of them, and the statement. -/
namespace Sys2Proof.Machine

section
variable {s t : State}

/-! ### Requests -/

theorem NodeRecord.update_lastValue (r : NodeRecord) (w : NodeWrite) : (r.update w).lastValue = r.lastValue := by
  unfold NodeRecord.update NodeRecord.thresholdWritten
  dsimp only
  repeat' split
  all_goals rfl

/-- A branch changed but for what it queues, works on and sends. -/
theorem FramesFit.tidy {b : Branch} {f : BranchState → BranchState} (hs : FramesFit s)
    (queue : (f (s.br b)).queue = (s.br b).queue) (slot : (f (s.br b)).slot = (s.br b).slot)
    (line : (f (s.br b)).line = (s.br b).line) : FramesFit (s.onBr b f) :=
  hs.move (Move.tidy (R := ReplyFits) (idle := False) s f queue slot line)

theorem FramesFit.updateRecord {r : NodeRecord} {w : NodeWrite} (hr : s.node? r.address = some r) (hs : FramesFit s) :
    FramesFit (s.updateRecord r w) := by
  have changed : FramesFit (s.onNode r.address fun _ => r.update w) :=
    { hs with
      lastValues := fun q hq v hv => by
        rcases mem_updateNode hq with hq | ⟨p, -, rfl⟩
        · exact hs.lastValues q hq v hv
        · exact hs.lastValues r (findNode_some hr).1 v (by rwa [NodeRecord.update_lastValue] at hv) }
  unfold State.updateRecord
  dsimp only
  split
  · exact { changed with }
  · exact changed

theorem FramesFit.carried (h : Carried s t) (hs : FramesFit s) : FramesFit t := by
  cases h with
  | branch b w d => exact FramesFit.work (work_applyBranch d) (hs.tidy rfl rfl rfl)
  | updated r hr w d => exact hs.updateRecord hr
  | created a low high free room w d =>
    refine { hs with lastValues := fun q hq v hv => ?_ }
    rcases mem_insertNode.1 hq with rfl | hq
    · cases hv
    · exact hs.lastValues q hq v hv
  | header b =>
    refine hs.tidy ?_ ?_ ?_ <;> (unfold BranchState.onStandby; split <;> rfl)
  | entry b =>
    refine hs.tidy ?_ ?_ ?_ <;> (unfold BranchState.onStandby; split <;> rfl)
  | deleted a =>
    refine keeps_purgeAll (fun _ _ _ => FramesFit.work) a { hs with lastValues := fun r hr => ?_ }
    exact hs.lastValues r ((removeNode_sublist a s.nodes).subset hr)
  | healthReset a => exact hs.onNode fun _ _ hv => .inl hv
  | purged a => exact keeps_purgeAll (fun _ _ _ => FramesFit.work) a hs
  | swapAsked b => exact hs.tidy (f := fun B => { B with swapPending := true }) rfl rfl rfl
  | swapped b => exact FramesFit.work work_takeSwap hs
  | mode b m => exact FramesFit.work (work_requestMode m) hs
  | counters g =>
    cases g with
    | branch b => exact hs.tidy (f := fun B => { B with counters := BranchCounters.zero }) rfl rfl rfl
    | device => exact { hs with }
  | _ => exact { hs with }

theorem FramesFit.manage (tag : Byte) (r : Request) (hs : FramesFit s) : FramesFit (State.manage tag (carryOut r) s) := by
  have hand : FramesFit { s with muTag := some tag } := { hs with }
  have answered := (hand.carried (carried_carryOut _ r)).respond (tag := tag) (carryOut_short hand.lastValues r)
  exact { answered with }

/-! ### Resets and ticks -/

theorem framesFit_hardReset (cause : RestartCause) (sa : Fin 8) (tr : Fin 4) (hs : FramesFit s) :
    FramesFit (s.hardReset cause sa tr) where
  pending := hs.pending
  pool _ he := by cases he
  transmitter _ hf := by cases hf
  branches b := by
    have hbr : (s.hardReset cause sa tr).br b = BranchState.reset (s.br b).supply := Per.get_map ..
    rw [hbr]
    exact BranchState.Fits.of_rest rfl trivial fun _ hc => by cases hc
  lastValues _ hr := by cases hr

theorem FramesFit.restartedPart (hs : FramesFit s) : FramesFit s.restartedPart where
  pending := hs.pending
  pool _ he := by cases he
  transmitter _ hf := by cases hf
  branches b := by
    have hbr : s.restartedPart.br b = (s.br b).restarted := Per.get_map ..
    rw [hbr]
    exact BranchState.Fits.of_rest rfl trivial fun _ hc => by cases hc
  lastValues r hr v hv := by
    obtain ⟨q, -, rfl⟩ := List.mem_map.1 hr
    cases hv

theorem insertRanked_perm (x : Nat × Instr) (l : List (Nat × Instr)) : (insertRanked x l).Perm (x :: l) := by
  induction l with
  | nil => exact .refl _
  | cons y l ih =>
    unfold insertRanked
    split
    · exact .refl _
    · exact (ih.cons y).trans (.swap x y l)

/-- The expiries of a tick wait in some order (log 2). -/
theorem ordered_perm (rank : Nat → Nat) (k : Nat) (l : List Instr) : ((ordered rank k l).map Prod.snd).Perm l := by
  induction l generalizing k with
  | nil => exact .refl _
  | cons c l ih => exact ((insertRanked_perm _ _).map Prod.snd).trans ((ih (k + 1)).cons c)

/-- An expiry is well formed: it has no operand but its branch. -/
theorem State.expiries_wf (s : State) : ∀ c ∈ s.expiries, c.wf = true := by
  have when : ∀ (p : Bool) (x c : Instr), x.wf = true → c ∈ (if p then [x] else []) → c.wf = true := fun p x c hx hc => by
    split at hc
    · rw [List.mem_singleton.1 hc]; exact hx
    · cases hc
  have ofBranch : ∀ (B : BranchState) b, ∀ c ∈ B.expiries b, c.wf = true := fun B b c hc => by
    unfold BranchState.expiries at hc
    rcases List.mem_append.1 hc with hc | hc
    · rcases List.mem_append.1 hc with hc | hc
      · exact when _ (.cycleTick b) c rfl hc
      · exact when _ (.qualifyTimerExpiry b) c rfl hc
    · exact when _ (.restoreTimerExpiry b) c rfl hc
  intro c hc
  simp only [State.expiries, List.mem_append] at hc
  rcases hc with (((hc | hc) | hc) | hc) | hc
  · exact when _ .retransmitTimerExpiry c rfl hc
  all_goals exact ofBranch _ _ c hc

theorem FramesFit.tick (hs : FramesFit s) : FramesFit s.tick where
  pending c hc := by
    rcases List.mem_append.1 hc with hc | hc
    · exact hs.pending c hc
    · exact s.expiries_wf c ((ordered_perm _ _ _).subset hc)
  pool := hs.pool
  transmitter := hs.transmitter
  branches b := by
    have hbr : s.tick.br b = (s.br b).tick := Per.get_map ..
    rw [hbr]
    exact { hs.branches b with }
  lastValues := hs.lastValues

/-! ### Every command -/

/-- The reply a well-formed command brings, whole or by its last character, fits the branch (R8, R16). -/
theorem FramesFit.bytesIn {c : Instr} (hs : FramesFit s) (wf : c.wf = true) : BytesIn ReplyFits s c := by
  cases c with
  | branchReplyComplete b f => exact of_decide_eq_true (p := f.payload.length ≤ 24) wf
  | branchCharacter b marker v =>
    intro taken f hline hf
    have hfits := (hs.branches b).line
    rw [hline] at hfits
    exact payload_length_of_complete hfits hf
  | _ => trivial

theorem kept_framesFit : Kept (fun _ c => c.wf = true) FramesFit where
  reset _ cause sa tr hs := framesFit_hardReset cause sa tr hs
  hunt _ _ hs := { hs with }
  begin _ _ _ hs := { hs with }
  append _ _ _ _ _ _ hs := { hs with }
  choice _ hs := hs.choice
  recover _ hs := hs.recover
  ack _ next payload _ hs := hs.takeAck next payload
  relay _ node tag payload hs := hs.takeRelay node tag payload
  manage _ tag r hs := hs.manage tag r
  restart _ hs := keeps_warmRestart (fun _ _ _ => FramesFit.work) hs.restartedPart
  free _ hs := { hs with transmitter := fun _ h => by cases h }
  expire _ _ hs := hs.expire
  branch s _ _ b wf row h hs := keeps_worked (R := ReplyFits) hs
    (fun phase w r hw hr => by rw [(hs.branches b).noReply phase w hw] at hr; cases hr) (hs.bytesIn wf) row h
    (fun _ hs => hs.tidy (f := fun B => { B with supply := _ }) rfl rfl rfl) (fun _ _ _ => FramesFit.work)
    fun _ hs => hs.choice

end
end Sys2Proof.Machine

/-! ### The statement -/

namespace Sys2Proof.Invariants
open Sys2Proof.Machine

/-- Settles O59: a receiver keeps the beginning of a frame, and what every operation stores or sends is as long as its
line carries, from commands and characters that are. -/
theorem framesKept : Obligations.FramesKept := by
  constructor <;> intro s t hs h <;> rcases step_cases h with ⟨-, rfl⟩ | ⟨c, rest, hpending, hexec⟩
  · exact hs.same rfl
  · exact kept_receiverOk.exec trivial hexec (hs.same rfl)
  · exact hs.tick
  · refine kept_framesFit.exec (hs.pending c (by rw [hpending]; exact List.mem_cons_self)) hexec { hs with
      pending := fun d hd => hs.pending d (by rw [hpending]; exact List.mem_cons_of_mem c hd) }

end Sys2Proof.Invariants
end

section
/-! PROOFS. Branches: what a branch between two slots must be for the engine to go on from it, and what the start of a
slot, a cycle or a transaction makes of it (R52 to R65, R84, R107 to R110). -/
namespace Sys2Proof.Machine

section
variable {b : Branch} {A B : BranchState} {s t : State}

/-! ### A branch between two slots -/

theorem BranchState.above_same (sup : B.sup.level = A.sup.level) (supply : B.supply = A.supply) : B.above = A.above := by
  rw [BranchState.above, sup, supply]
  rfl

theorem SupplyOk.same (h : SupplyOk A) (sup : B.sup = A.sup) (supply : B.supply = A.supply) : SupplyOk B := by
  have above : B.above = A.above := BranchState.above_same (by rw [sup]) supply
  exact ⟨by rw [sup]; exact h.qualify, by rw [sup, above]; exact h.restore, by rw [sup]; exact h.marked,
    by rw [sup]; exact h.unmarked, by rw [sup, above]; exact h.below, by rw [sup, above]; exact h.above,
    by rw [sup]; exact h.disabled⟩

/-- A branch with no slot in progress whose cycle goes with its mode (R52, R53, R60). The cycle may be running still,
where a slot of it has just ended. -/
structure Resting (B : BranchState) : Prop where
  slot      : B.slot = none
  line      : B.line = .quiet
  idleCycle : B.current ≠ .scheduled ∨ B.supplyWait = true → B.cycle.phase = .stopped ∧ B.cycle.timer = none
  cycling   : B.current = .scheduled → B.supplyWait = false → B.cycle.phase ≠ .stopped ∧ B.cycle.timer.isSome = true
  late      : B.cycle.late = true → B.cycle.phase = .running
  swap      : B.swapPending = true → B.current = .scheduled

theorem BranchOk.line_of_idle (h : BranchOk b B) (slot : B.slot = none) : B.line = .quiet := by
  have line := h.line
  rwa [slot] at line

theorem BranchOk.resting (h : BranchOk b B) (slot : B.slot = none) : Resting B :=
  ⟨slot, h.line_of_idle slot, h.idleCycle, h.cycling, h.late, h.swap⟩

/-- No change waits while no slot is in progress (R103). -/
theorem BranchOk.settled (h : BranchOk b B) (slot : B.slot = none) : B.requested = B.current := by
  by_contra hne
  have pending : B.changePending = true := by simpa [BranchState.changePending] using hne
  have := h.change pending
  rw [slot] at this
  cases this

theorem BranchState.changePending_of_settled (h : B.requested = B.current) : B.changePending = false := by
  simp [BranchState.changePending, h]

/-- A resting branch of which no cycle runs is as it should be, its supply and its queue apart. -/
theorem Resting.ok (h : Resting B) (supply : SupplyOk B) (offDisabled : B.current = .off ↔ B.sup.state = .disabled)
    (queue : B.sup.state.usable = false ∨ B.current = .onDemand → B.queue = [])
    (waiting : B.supplyWait = true → B.sup.state = .restorePending) (phase : B.cycle.phase ≠ .running)
    (settled : B.requested = B.current) : BranchOk b B where
  supply := supply
  line := by rw [h.slot]; exact h.line
  offDisabled := offDisabled
  noSupply u := ⟨queue (.inl u), h.slot⟩
  waiting := waiting
  idleCycle := h.idleCycle
  cycling := h.cycling
  running _ := by rw [h.slot]; exact ⟨fun e => (nomatch e), fun e => absurd e phase⟩
  late := h.late
  transaction _ r hr := by rw [h.slot] at hr; cases hr
  onDemand e _ := queue (.inr e)
  change p := by rw [BranchState.changePending_of_settled settled] at p; cases p
  swap := h.swap

/-! ### Transactions -/

/-- A branch as it should be but for commands that an idle ON_DEMAND engine has yet to start (R108). -/
structure Startable (b : Branch) (B : BranchState) : Prop where
  emptied : BranchOk b { B with queue := [] }
  queue   : B.sup.state.usable = false → B.queue = []

theorem BranchOk.startable (h : BranchOk b B) : Startable b B where
  emptied :=
    { h with
      supply := h.supply.same rfl rfl
      noSupply := fun u => ⟨rfl, (h.noSupply u).2⟩
      onDemand := fun _ _ => rfl }
  queue u := (h.noSupply u).1

/-- Commands that wait for a branch with a usable supply (R95). -/
theorem BranchOk.queued (h : BranchOk b B) (queue : List Command) (usable : B.sup.state.usable = true) :
    Startable b { B with queue := queue } where
  emptied := h.startable.emptied
  queue u := by rw [usable] at u; cases u

/-- With nothing left that may start, the branch is as it should be. -/
theorem Startable.ok (h : Startable b B)
    (idle : B.current = .onDemand → B.slot = none → B.queue = []) : BranchOk b B :=
  { h.emptied with
    supply := h.emptied.supply.same rfl rfl
    noSupply := fun u => ⟨h.queue u, (h.emptied.noSupply u).2⟩
    onDemand := idle }

theorem Startable.ok_of_not_mayTransact (h : Startable b (s.br b)) (hno : ¬ s.mayTransact b = true) :
    BranchOk b (s.br b) := by
  refine h.ok fun mode slot => ?_
  by_contra hqueue
  refine hno (State.mayTransact_iff.2 ⟨⟨mode, (h.emptied.settled slot).trans mode, ?_, ?_, slot⟩, hqueue⟩)
  · by_contra hwait
    have state : (s.br b).sup.state = .restorePending := h.emptied.waiting (by simpa using hwait)
    exact hqueue (h.queue (by rw [state]; rfl))
  · by_contra hstate
    refine hqueue (h.queue ?_)
    by_contra husable
    exact hstate (SupplyState.usable_iff.1 (by simpa using husable))

/-- A transaction that starts takes the head of the queue, and ends at once or is in progress (R109). -/
theorem Startable.startTransaction (h : Startable b (s.br b)) (may : s.mayTransact b = true) :
    Startable b ((s.startTransaction b).br b) ∧
      ((s.startTransaction b).br b).queue.length + 1 = (s.br b).queue.length := by
  obtain ⟨ready, hqueue⟩ := State.mayTransact_iff.1 may
  obtain ⟨mode, -, -, state, -⟩ := ready
  have usable := SupplyState.usable_iff.2 state
  rcases hq : (s.br b).queue with _ | ⟨c, rest⟩
  · exact absurd hq hqueue
  · have ended : ∀ status, s.startTransaction b = (s.takeHead b rest).convert c.tag c.node status [] →
        Startable b ((s.startTransaction b).br b) ∧ ((s.startTransaction b).br b).queue.length + 1 = rest.length + 1 :=
      fun status e => by
        rw [e, State.convert_br, State.takeHead, State.onBr_br_same]
        exact ⟨⟨h.emptied, fun u => by rw [usable] at u; cases u⟩, rfl⟩
    by_cases hroute : ∀ r, s.node? c.node = some r → r.branch ≠ b
    · exact ended _ (State.startTransaction_noRoute hq hroute)
    · push Not at hroute
      obtain ⟨r, hr, hbranch⟩ := hroute
      by_cases hinactive : r.health = .inactive
      · exact ended _ (State.startTransaction_inactive hq hr hbranch hinactive)
      · rw [State.startTransaction_sends hq hr hbranch hinactive, State.takeHead_launch, State.onBr_br_same,
          State.onNode_br]
        refine ⟨⟨?_, fun u => by rw [usable] at u; cases u⟩, rfl⟩
        have base := h.emptied
        exact
          { supply := base.supply.same rfl rfl
            line := rfl
            offDisabled := base.offDisabled
            noSupply := fun u => by rw [usable] at u; cases u
            waiting := base.waiting
            idleCycle := base.idleCycle
            cycling := base.cycling
            running := fun e => absurd (mode.symm.trans e) (by decide)
            late := base.late
            transaction := fun _ r hr => by cases hr; exact ⟨_, rfl⟩
            onDemand := fun _ _ => rfl
            change := fun _ => rfl
            swap := base.swap }

theorem Startable.runTransactions (n : Nat) (h : Startable b (s.br b)) (hn : (s.br b).queue.length ≤ n) :
    BranchOk b ((State.runTransactions b n s).br b) := by
  induction n generalizing s with
  | zero =>
    refine h.ok_of_not_mayTransact fun may => (State.mayTransact_iff.1 may).2 ?_
    exact List.eq_nil_of_length_eq_zero (Nat.le_zero.1 hn)
  | succ n ih =>
    unfold State.runTransactions
    split
    · rename_i may
      obtain ⟨hnext, hlen⟩ := h.startTransaction may
      exact ih hnext (by omega)
    · exact h.ok_of_not_mayTransact ‹_›

/-- The engine of an ON_DEMAND branch starts what it may (R108, R110). -/
theorem Startable.kick (h : Startable b (s.br b)) : BranchOk b ((s.kick b).br b) := h.runTransactions _ (Nat.le_refl _)

/-! ### Cycles -/

/-- A SCHEDULED branch with a usable supply, between two slots (R53). -/
structure Cycling (B : BranchState) : Prop where
  supply    : SupplyOk B
  usable    : B.sup.state.usable = true
  scheduled : B.current = .scheduled
  asked     : B.requested = .scheduled
  wait      : B.supplyWait = false
  timer     : B.cycle.timer.isSome = true
  slot      : B.slot = none
  line      : B.line = .quiet

/-- The marker, the pending swap, the queue, the counters and the cycle state may change between two slots. -/
theorem Cycling.update (h : Cycling A) (bank : BankName) (swap : Bool) (queue : List Command) (counters : BranchCounters)
    (cycle : Cycle) (timer : cycle.timer.isSome = true) :
    Cycling { A with
      activeBank := bank, swapPending := swap, queue := queue, counters := counters, cycle := cycle } :=
  { h with supply := h.supply.same rfl rfl, timer := timer }

/-- The engine waits for its next tick (R54). -/
theorem Cycling.waiting (h : Cycling B) (phase : B.cycle.phase = .waiting) (late : B.cycle.late = false) :
    BranchOk b B := by
  have powered : B.sup.state ≠ .disabled := fun e => by have := h.usable; rw [e] at this; cases this
  have rest : Resting B :=
    { slot := h.slot, line := h.line
      idleCycle := fun e => absurd e (by rw [h.scheduled, h.wait]; simp)
      cycling := fun _ _ => ⟨by rw [phase]; decide, h.timer⟩
      late := fun e => by rw [late] at e; cases e
      swap := fun _ => h.scheduled }
  refine rest.ok h.supply ?_ ?_ ?_ (by rw [phase]; decide) (h.asked.trans h.scheduled.symm)
  · exact ⟨fun e => absurd (h.scheduled.symm.trans e) (by decide), fun e => absurd e powered⟩
  · rintro (e | e)
    · exact absurd (h.usable.symm.trans e) (by decide)
    · exact absurd (h.scheduled.symm.trans e) (by decide)
  · exact fun e => absurd (h.wait.symm.trans e) (by decide)

/-- What the start of a slot that takes line time does to its branch (R65, R68, R82, R83). -/
def BranchState.Begun (b : Branch) (A B : BranchState) : Prop :=
  ∃ k q slot line, B = { A with counters := k, queue := q, slot := some slot, line := line } ∧
    lineAgrees b A.cycle.number (some slot) line

/-- A slot of a running cycle is in progress (R53). -/
theorem Cycling.begun (h : Cycling A) (running : A.cycle.phase = .running) (begun : A.Begun b B) : BranchOk b B := by
  obtain ⟨k, q, slot, line, rfl, agrees⟩ := begun
  have usable := h.usable
  have powered : A.sup.state ≠ .disabled := fun e => by rw [e] at usable; cases usable
  exact
    { supply := h.supply.same rfl rfl
      line := agrees
      offDisabled := ⟨fun e => absurd (h.scheduled.symm.trans e) (by decide), fun e => absurd e powered⟩
      noSupply := fun u => absurd (usable.symm.trans u) (by decide)
      waiting := fun e => absurd (h.wait.symm.trans e) (by decide)
      idleCycle := fun e => absurd e (by
        show ¬(A.current ≠ .scheduled ∨ A.supplyWait = true)
        rw [h.scheduled, h.wait]; simp)
      cycling := fun _ _ => ⟨by show A.cycle.phase ≠ _; rw [running]; decide, h.timer⟩
      running := fun _ => ⟨fun _ => running, fun _ => rfl⟩
      late := fun _ => running
      transaction := fun e => absurd (h.scheduled.symm.trans e) (by decide)
      onDemand := fun e => absurd (h.scheduled.symm.trans e) (by decide)
      change := fun _ => rfl
      swap := fun _ => h.scheduled }

@[simp] theorem State.beginAttempt_br (s : State) (b : Branch) (rate : LineRate) (w : PollWork) :
    (s.beginAttempt b rate w).br b = { s.br b with
      slot := some { rate := rate, phase := .sending, work := .poll w }, line := .sending w.lineFrame } :=
  State.onBr_br_same ..

theorem State.chooseFrame_begun (s : State) (b : Branch) (r : NodeRecord) (window retries : Nat) :
    (s.br b).Begun b ((s.chooseFrame b r window retries).br b) := by
  unfold State.chooseFrame
  dsimp only
  split
  · rw [State.launch, State.beginAttempt_br, State.onNode_br, State.onBr_br_same, State.count_br_same]
    exact ⟨_, _, _, _, rfl, rfl⟩
  · rw [State.beginAttempt_br, State.count_br_same]
    exact ⟨_, _, _, _, rfl, rfl⟩

theorem State.lookup_begun (s : State) (b : Branch) (node window retries : Nat) :
    (s.lookup b node window retries).br b = (s.br b).afterSkip ∨
      (s.br b).Begun b ((s.lookup b node window retries).br b) := by
  unfold State.lookup
  split
  · exact .inl (s.skipSlot_br b)
  · split
    · exact .inl (s.skipSlot_br b)
    · split
      · exact .inl (s.skipSlot_br b)
      · exact .inr (s.chooseFrame_begun ..)
      · exact .inr (s.chooseFrame_begun ..)
      · split
        · exact .inl ((s.onNode node _).skipSlot_br b)
        · exact .inr ((s.onNode node _).chooseFrame_begun ..)

/-- The start of a slot on a quiet line skips it, or begins it (R65, R66). -/
theorem State.startSlot_begun (quiet : (s.br b).line = .quiet) :
    (s.startSlot b).br b = (s.br b).afterSkip ∨ (s.br b).Begun b ((s.startSlot b).br b) := by
  unfold State.startSlot
  dsimp only
  split
  · exact s.lookup_begun ..
  · rw [State.onBr_br_same, State.count_br_same]
    exact .inr ⟨_, _, _, _, rfl, rfl⟩
  · rw [State.onBr_br_same, State.count_br_same]
    exact .inr ⟨_, (s.br b).queue, _, (s.br b).line, rfl, quiet⟩

/-- Slots run until one takes line time, or none is left and the cycle is complete (R65, R66, R84). -/
def Underway (b : Branch) (B : BranchState) : Prop :=
  (B.slot.isSome = true ∧ BranchOk b B) ∨ (Cycling B ∧ B.cycle.phase = .running)

theorem Cycling.runSlots (n : Nat) (h : Cycling (s.br b)) (running : (s.br b).cycle.phase = .running) :
    Underway b ((State.runSlots b n s).br b) := by
  induction n generalizing s with
  | zero => exact .inr ⟨h, running⟩
  | succ n ih =>
    unfold State.runSlots
    dsimp only
    rcases State.startSlot_begun h.line with skipped | begun
    · rw [if_neg (by rw [skipped]; simp [BranchState.afterSkip, h.slot])]
      refine ih ?_ ?_ <;> rw [skipped]
      · exact h.update _ _ _ _ _ h.timer
      · exact running
    · have ok := h.begun running begun
      obtain ⟨k, q, slot, line, hbr, -⟩ := begun
      have taken : ((s.startSlot b).br b).slot.isSome = true := by rw [hbr]; rfl
      rw [if_pos taken]
      exact .inl ⟨taken, ok⟩

theorem State.takePendingSwap_br (s : State) (b : Branch) :
    ∃ bank, (s.takePendingSwap b).br b = { s.br b with activeBank := bank, swapPending := false } := by
  unfold State.takePendingSwap
  split
  · exact ⟨_, by rw [State.takeSwap, State.signal_br, State.onBr_br_same]⟩
  · rename_i h
    have clear : (s.br b).swapPending = false := by simpa using h
    exact ⟨(s.br b).activeBank, by rw [← clear]⟩

theorem State.enterCycle_br (s : State) (b : Branch) :
    ∃ q k, (s.enterCycle b).br b = { s.br b with
      queue := q, counters := k
      cycle := { (s.br b).cycle with number := (s.br b).cycle.number + 1, index := 0, phase := .running } } := by
  rw [State.enterCycle, State.onBr_br_same, State.expireAll_br]
  exact ⟨_, _, rfl⟩

/-- A cycle starts: a slot of it is in progress, or it is complete at once (R55). -/
theorem Cycling.openCycle (h : Cycling (s.br b)) : Underway b ((s.openCycle b).br b) := by
  obtain ⟨bank, hswap⟩ := s.takePendingSwap_br b
  obtain ⟨q, k, henter⟩ := (s.takePendingSwap b).enterCycle_br b
  rw [hswap] at henter
  rw [State.openCycle_eq, State.runCycle]
  refine Cycling.runSlots _ ?_ ?_ <;> rw [henter]
  exact h.update bank false q k _ h.timer

theorem Cycling.wait_ok (h : Cycling (s.br b)) (late : (s.br b).cycle.late = false) :
    BranchOk b ((s.wait b).br b) := by
  rw [State.wait, State.onCycle_br_same]
  exact (h.update _ _ _ _ { (s.br b).cycle with phase := .waiting } h.timer).waiting rfl late

/-- What has begun is in progress, or its cycle completes and the engine waits (R54). -/
theorem Underway.or_wait (h : Underway b (s.br b)) (late : (s.br b).cycle.late = false) :
    BranchOk b ((if (s.br b).slot.isSome then s else s.wait b).br b) := by
  rcases h with ⟨slot, ok⟩ | ⟨cycling, -⟩
  · rwa [if_pos slot]
  · rw [if_neg (by rw [cycling.slot]; decide)]
    exact cycling.wait_ok late

theorem Cycling.completeCycle (h : Cycling (s.br b)) : BranchOk b ((s.completeCycle b).br b) := by
  rcases late : (s.br b).cycle.late with _ | _
  · rw [State.completeCycle_onTime late]
    exact h.wait_ok late
  · rw [State.completeCycle_late late, State.cycleStart_onTime (by simp)]
    refine Underway.or_wait (Cycling.openCycle ?_) ?_
    · rw [State.signal_br, State.onBr_br_same]
      exact h.update _ _ _ _ { (s.br b).cycle with late := false } h.timer
    · rw [State.openCycle_late, State.signal_br, State.onBr_br_same]

/-- What has begun is in progress, or its cycle completes (R54, R84). -/
theorem Underway.or_complete (h : Underway b (s.br b)) :
    BranchOk b ((if (s.br b).slot.isSome then s else s.completeCycle b).br b) := by
  rcases h with ⟨slot, ok⟩ | ⟨cycling, -⟩
  · rwa [if_pos slot]
  · rw [if_neg (by rw [cycling.slot]; decide)]
    exact cycling.completeCycle

theorem Cycling.cycleStart (h : Cycling (s.br b)) : BranchOk b ((s.cycleStart b).br b) := h.openCycle.or_complete

theorem Cycling.continueCycle (h : Cycling (s.br b)) (running : (s.br b).cycle.phase = .running) :
    BranchOk b ((s.continueCycle b).br b) := (h.runSlots _ running).or_complete

/-- The engine of a SCHEDULED branch with a usable supply begins to cycle (R52). -/
theorem Cycling.start (supply : SupplyOk (s.br b)) (usable : (s.br b).sup.state.usable = true)
    (scheduled : (s.br b).current = .scheduled) (asked : (s.br b).requested = .scheduled)
    (wait : (s.br b).supplyWait = false) (slot : (s.br b).slot = none) (line : (s.br b).line = .quiet) :
    BranchOk b (((s.startTimer b).cycleStart b).br b) := by
  refine Cycling.cycleStart ?_
  rw [State.startTimer, State.onCycle_br_same]
  exact { supply := supply.same rfl rfl, usable, scheduled, asked, wait, timer := rfl, slot, line }

end
end Sys2Proof.Machine
end

section
/-! PROOFS. Branches: the supply reaching NORMAL, a change of mode, the end of work and a fault each leave a branch as it
should be (R58 to R60, R84, R103 to R106, R110, R185 to R190). -/
namespace Sys2Proof.Machine

section
variable {b : Branch} {A B : BranchState} {s t : State}

/-! ### The supply reaching NORMAL -/

/-- A supply that is NORMAL with its timers and its mark clear (R185, R188). -/
theorem supplyOk_normal (state : B.sup.state = .normal) (qualify : B.sup.qualify = none) (restore : B.sup.restore = none)
    (mark : B.sup.faultMark = false) (above : B.sup.enabled = true → B.above = true) : SupplyOk B := by
  constructor <;> simp [state, qualify, restore, mark]
  exact above

/-- A resting branch without a usable supply, and nothing queued, whose supervisor reaches NORMAL: its engine begins work
(R52, R105, R188). -/
theorem Resting.reachNormal (h : Resting (s.br b)) (queue : (s.br b).queue = []) (qualify : (s.br b).sup.qualify = none)
    (above : (s.br b).sup.enabled = true → (s.br b).above = true) (on : (s.br b).current ≠ .off)
    (settled : (s.br b).requested = (s.br b).current) (phase : (s.br b).cycle.phase ≠ .running) :
    BranchOk b ((s.reachNormal b).br b) := by
  have hnormal := s.supplyNormal_br b
  have supply : ∀ wait, SupplyOk { (s.supplyNormal b).br b with supplyWait := wait } := fun wait => by
    rw [hnormal]
    exact supplyOk_normal rfl qualify rfl rfl above
  have offDisabled : (s.br b).current = .off ↔ SupplyState.normal = .disabled :=
    ⟨fun e => absurd e on, fun e => nomatch e⟩
  rw [State.reachNormal_eq]
  split
  · rename_i wait
    have hclear : ((s.supplyNormal b).clearWait b).br b = { (s.supplyNormal b).br b with supplyWait := false } := by
      rw [State.clearWait, State.onBr_br_same]
    have supply := supply false
    rw [← hclear] at supply
    rw [hnormal] at hclear
    obtain ⟨stopped, timer⟩ := h.idleCycle (.inr wait)
    cases mode : (s.br b).current with
    | off => exact absurd mode on
    | scheduled =>
      rw [State.beginWork_scheduled (by rw [hclear]; exact mode)]
      refine Cycling.start supply ?_ ?_ ?_ ?_ ?_ ?_ <;> rw [hclear]
      · rfl
      · exact mode
      · exact settled.trans mode
      · exact h.slot
      · exact h.line
    | onDemand =>
      rw [State.beginWork_onDemand (by rw [hclear]; exact mode)]
      refine BranchOk.startable ?_ |>.kick
      rw [hclear] at supply ⊢
      refine Resting.ok { h with idleCycle := fun _ => ⟨stopped, timer⟩, cycling := fun e => ?_ } supply offDisabled
        (fun _ => queue) (fun e => nomatch e) phase settled
      exact absurd (mode.symm.trans e) (by decide)
  · rename_i wait
    have wait : (s.br b).supplyWait = false := by simpa using wait
    refine BranchOk.startable ?_ |>.kick
    rw [hnormal]
    exact Resting.ok { h with } (supplyOk_normal rfl qualify rfl rfl above) offDisabled (fun _ => queue)
      (fun e => absurd (wait.symm.trans e) (by decide)) phase settled

/-- A branch with nothing to do, out of OFF, awaits its supply (R105, R114, R190). -/
theorem Resting.awaitSupply (h : Resting { s.br b with supplyWait := true }) (queue : (s.br b).queue = [])
    (on : (s.br b).current ≠ .off) (settled : (s.br b).requested = (s.br b).current) :
    BranchOk b ((s.awaitSupply b).br b) := by
  have stopped : (s.br b).cycle.phase = .stopped := (h.idleCycle (.inr rfl)).1
  have notRunning : (s.br b).cycle.phase ≠ .running := by rw [stopped]; decide
  rw [State.awaitSupply_eq]
  dsimp only
  generalize hv : (s.onBr b fun B => { B with
    supplyWait := true
    sup := { B.sup with
      state := .restorePending, qualify := none, faultMark := false
      restore := if B.sup.level < B.supply.val then some 0 else none } }) = v
  have hbr : v.br b = { s.br b with
    supplyWait := true
    sup := { (s.br b).sup with
      state := .restorePending, qualify := none, faultMark := false
      restore := if (s.br b).sup.level < (s.br b).supply.val then some 0 else none } } := by
    rw [← hv, State.onBr_br_same]
  have rest : Resting (v.br b) := by
    rw [hbr]
    exact { h with }
  split
  · rename_i enabled
    refine rest.ok ?_ ?_ (fun _ => ?_) ?_ ?_ ?_ <;> rw [hbr]
    · constructor <;> simp [enabled, BranchState.above, reportsAbove]
    · exact ⟨fun e => absurd e on, fun e => nomatch e⟩
    · exact queue
    · exact fun _ => rfl
    · exact notRunning
    · exact settled
  · rename_i disabled
    refine rest.reachNormal ?_ ?_ ?_ ?_ ?_ ?_ <;> rw [hbr]
    · exact queue
    · exact fun e => absurd e disabled
    · exact on
    · exact settled
    · exact notRunning

/-! ### Mode changes -/

/-- A branch whose supervisor is DISABLED, with nothing queued (R104, R185). -/
theorem Resting.goOff (h : Resting (s.br b)) (off : (s.br b).current = .off) (settled : (s.br b).requested = .off)
    (phase : (s.br b).cycle.phase = .stopped) (timer : (s.br b).cycle.timer = none) :
    BranchOk b ((s.goOff b).br b) := by
  have hbr : (s.goOff b).br b = { s.br b with
      queue := [], supplyWait := false
      sup := { (s.br b).sup with state := .disabled, restore := none, qualify := none, faultMark := false } } := by
    rw [State.goOff_eq]
    exact Per.get_set_same ..
  rw [hbr]
  refine Resting.ok { h with idleCycle := fun _ => ⟨phase, timer⟩, cycling := fun e => ?_ } ?_ ?_ (fun _ => rfl)
    (fun e => nomatch e) ?_ (settled.trans off.symm)
  · exact absurd (off.symm.trans e) (by decide)
  · constructor <;> simp
  · exact ⟨fun _ => rfl, fun _ => off⟩
  · show (s.br b).cycle.phase ≠ .running
    rw [phase]
    decide

/-- A change to SCHEDULED on a branch whose cycle is stopped (R60, R105, R106). -/
theorem Resting.beginCycling (h : Resting { s.br b with current := was }) (supply : SupplyOk (s.br b))
    (powered : (s.br b).sup.state ≠ .disabled) (queue : (s.br b).sup.state.usable = false → (s.br b).queue = [])
    (waiting : (s.br b).supplyWait = true → (s.br b).sup.state = .restorePending) (out : was ≠ .scheduled)
    (scheduled : (s.br b).current = .scheduled) (asked : (s.br b).requested = .scheduled) :
    BranchOk b ((s.beginCycling b).br b) := by
  obtain ⟨stopped, timer⟩ := h.idleCycle (.inl out)
  have stopped : (s.br b).cycle.phase = .stopped := stopped
  have settled := asked.trans scheduled.symm
  have offDisabled : (s.br b).current = .off ↔ (s.br b).sup.state = .disabled :=
    ⟨fun e => absurd (scheduled.symm.trans e) (by decide), fun e => absurd e powered⟩
  have late : (s.br b).cycle.late = false := by
    by_contra hne
    exact absurd (stopped.symm.trans (h.late (by simpa using hne))) (by decide)
  rcases wait : (s.br b).supplyWait with _ | _
  · by_cases state : (s.br b).sup.state = .normal ∨ (s.br b).sup.state = .lowPending
    · rw [State.beginCycling_usable wait state]
      exact Cycling.start supply (SupplyState.usable_iff.2 state) scheduled asked wait h.slot h.line
    · obtain ⟨notNormal, notLow⟩ := not_or.1 state
      have dry := queue (SupplyState.usable_eq_false notNormal notLow)
      rw [State.beginCycling_out wait notNormal notLow, State.suspendedCycle_eq, State.onBr_br_same]
      obtain ⟨bank, hswap⟩ := (s.startTimer b).takePendingSwap_br b
      rw [hswap, State.startTimer, State.onCycle_br_same]
      refine Resting.ok ⟨h.slot, h.line, fun e => ?_, fun _ _ => ⟨by simp, rfl⟩, fun e => ?_, fun e => nomatch e⟩
        (supply.same rfl rfl) offDisabled (fun _ => dry) waiting (by simp) settled
      · rcases e with e | e
        · exact absurd scheduled e
        · exact absurd (wait.symm.trans e) (by decide)
      · exact absurd (late.symm.trans e) (by decide)
  · rw [State.beginCycling_waiting wait]
    refine Resting.ok ⟨h.slot, h.line, fun _ => ⟨stopped, timer⟩, fun _ e => ?_, h.late, fun _ => scheduled⟩ supply
      offDisabled ?_ waiting ?_ settled
    · exact absurd (wait.symm.trans e) (by decide)
    · rintro (e | e)
      · exact queue e
      · exact absurd (scheduled.symm.trans e) (by decide)
    · rw [stopped]; decide

theorem State.endCycling_br (s : State) (b : Branch) :
    ∃ bank, (s.endCycling b).br b = { s.br b with
      activeBank := bank, swapPending := false
      cycle := { (s.br b).cycle with phase := .stopped, late := false, timer := none } } := by
  obtain ⟨bank, h⟩ := (s.onCycle b fun c => { c with phase := .stopped, late := false, timer := none }).takePendingSwap_br b
  rw [State.onCycle_br_same] at h
  exact ⟨bank, h⟩

theorem State.adoptMode_br (s : State) (b : Branch) :
    (s.adoptMode b).br b = { s.br b with current := (s.br b).requested } := State.onBr_br_same ..

/-- A resting branch of which no cycle runs is as it should be, but for commands that may start. -/
theorem Resting.startable (h : Resting B) (supply : SupplyOk B) (offDisabled : B.current = .off ↔ B.sup.state = .disabled)
    (queue : B.sup.state.usable = false → B.queue = [])
    (waiting : B.supplyWait = true → B.sup.state = .restorePending) (phase : B.cycle.phase ≠ .running)
    (settled : B.requested = B.current) : Startable b B where
  emptied := Resting.ok { h with } (supply.same rfl rfl) offDisabled (fun _ => rfl) waiting phase settled
  queue := queue

/-- A pending change taken between two slots leaves the branch as it should be in its new mode (R103 to R106). -/
theorem Resting.takeChange (h : Resting (s.br b)) (supply : SupplyOk (s.br b))
    (offDisabled : (s.br b).current = .off ↔ (s.br b).sup.state = .disabled)
    (queue : (s.br b).sup.state.usable = false → (s.br b).queue = [])
    (waiting : (s.br b).supplyWait = true → (s.br b).sup.state = .restorePending)
    (pending : (s.br b).changePending = true) : BranchOk b ((s.takeChange b).br b) := by
  have hadopt := s.adoptMode_br b
  obtain ⟨bank, hend⟩ := (s.adoptMode b).endCycling_br b
  rw [hadopt] at hend
  have ended : Resting (((s.adoptMode b).endCycling b).br b) ∨ (s.br b).requested = .scheduled := by
    by_cases asked : (s.br b).requested = .scheduled
    · exact .inr asked
    · rw [hend]
      exact .inl ⟨h.slot, h.line, fun _ => ⟨rfl, rfl⟩, fun e => absurd e asked, fun e => (nomatch e),
        fun e => (nomatch e)⟩
  have powered : (s.br b).current ≠ .off → (s.br b).sup.state ≠ .disabled := fun on e => on (offDisabled.2 e)
  have differ : (s.br b).requested ≠ (s.br b).current := by simpa [BranchState.changePending] using pending
  cases was : (s.br b).current <;> cases asked : (s.br b).requested
  case scheduled.onDemand =>
    have rest := ended.resolve_right (by rw [asked]; decide)
    rw [State.takeChange_scheduled_onDemand was asked]
    refine (rest.startable ?_ ?_ ?_ ?_ ?_ ?_).kick <;> rw [hend]
    · exact supply.same rfl rfl
    · exact ⟨fun e => absurd (asked.symm.trans e) (by decide), fun e => absurd e (powered (by rw [was]; decide))⟩
    · exact queue
    · exact waiting
    · exact fun e => nomatch e
  case scheduled.off =>
    have rest := ended.resolve_right (by rw [asked]; decide)
    rw [State.takeChange_scheduled_off was asked]
    refine rest.goOff ?_ ?_ ?_ ?_ <;> rw [hend]
    · exact asked
    · exact asked
  case onDemand.off =>
    obtain ⟨stopped, timer⟩ := h.idleCycle (.inl (by rw [was]; decide))
    rw [State.takeChange_onDemand_off was asked]
    refine Resting.goOff ?_ ?_ ?_ ?_ ?_ <;> rw [hadopt]
    · refine ⟨h.slot, h.line, fun _ => ⟨stopped, timer⟩, fun e => absurd (asked.symm.trans e) (by decide), h.late, ?_⟩
      exact fun e => absurd (was.symm.trans (h.swap e)) (by decide)
    · exact asked
    · exact asked
    · exact stopped
    · exact timer
  case onDemand.scheduled =>
    rw [State.takeChange_onDemand_scheduled was asked]
    refine Resting.beginCycling (was := .onDemand) ?_ ?_ ?_ ?_ ?_ (by decide) ?_ ?_ <;> rw [hadopt]
    · rw [← was]
      exact h
    · exact supply.same rfl rfl
    · exact powered (by rw [was]; decide)
    · exact queue
    · exact waiting
    · exact asked
    · exact asked
  case off.scheduled | off.onDemand =>
    obtain ⟨stopped, timer⟩ := h.idleCycle (.inl (by rw [was]; decide))
    have empty := queue (by rw [offDisabled.1 was]; rfl)
    rw [State.takeChange_fromOff was (by rw [asked]; decide)]
    refine Resting.awaitSupply ?_ ?_ ?_ ?_ <;> rw [hadopt]
    · exact ⟨h.slot, h.line, fun _ => ⟨stopped, timer⟩, fun _ e => (nomatch e), h.late,
        fun e => absurd (was.symm.trans (h.swap e)) (by decide)⟩
    · exact empty
    · exact fun e => absurd (asked.symm.trans e) (by decide)
  all_goals exact absurd (asked.trans was.symm) differ

end
end Sys2Proof.Machine
end

section
/-! PROOFS. Branches: what the rows of a branch, a relay, a request and a reset leave as it should be. -/
namespace Sys2Proof.Machine

section
variable {b : Branch} {A B : BranchState} {s t : State}

/-! ### The end of work -/

/-- A branch whose slot or transaction has just ended (R84, R110). -/
structure Freed (B : BranchState) : Prop where
  resting : Resting B
  supply  : SupplyOk B
  usable  : B.sup.state.usable = true
  on      : B.current ≠ .off
  wait    : B.supplyWait = false
  running : B.current = .scheduled → B.cycle.phase = .running

theorem BranchOk.freed (h : BranchOk b A) (busy : A.slot.isSome = true) (counters : BranchCounters) :
    Freed { A with counters := counters, slot := none, line := .quiet } := by
  have usable : A.sup.state.usable = true := by
    by_contra hne
    rw [(h.noSupply (by simpa using hne)).2] at busy
    cases busy
  refine ⟨⟨rfl, rfl, h.idleCycle, h.cycling, h.late, h.swap⟩, h.supply.same rfl rfl, usable, fun e => ?_, ?_,
    fun e => (h.running e).1 busy⟩
  · exact absurd (h.offDisabled.1 e) fun state => by rw [state] at usable; cases usable
  · by_contra hne
    have state := h.waiting (by simpa using hne)
    rw [state] at usable
    cases usable

theorem Freed.takeChange (h : Freed (s.br b)) (pending : (s.br b).changePending = true) :
    BranchOk b ((s.takeChange b).br b) := by
  refine h.resting.takeChange h.supply ⟨fun e => absurd e h.on, fun e => ?_⟩ (fun e => ?_) (fun e => ?_) pending
  · have usable := h.usable
    rw [e] at usable
    cases usable
  · exact absurd (h.usable.symm.trans e) (by decide)
  · exact absurd (h.wait.symm.trans e) (by decide)

theorem Freed.settled (pending : ¬ B.changePending = true) : B.requested = B.current := by
  simpa [BranchState.changePending] using pending

/-- The index of a slot that has ended rises, and the branch is at rest still (R84). -/
theorem Freed.index (h : Freed B) (index : Nat) : Freed { B with cycle := { B.cycle with index := index } } :=
  ⟨{ h.resting with }, h.supply.same rfl rfl, h.usable, h.on, h.wait, h.running⟩

theorem Freed.afterSlot (h : Freed (s.br b)) (scheduled : (s.br b).current = .scheduled) :
    BranchOk b ((s.afterSlot b).br b) := by
  unfold State.afterSlot
  dsimp only
  generalize ht : (s.onCycle b fun c => { c with index := c.index + 1 }) = t
  have hbr : t.br b = { s.br b with cycle := { (s.br b).cycle with index := (s.br b).cycle.index + 1 } } := by
    rw [← ht, State.onCycle_br_same]
  have freed : Freed (t.br b) := by
    rw [hbr]
    exact h.index _
  have mode : (t.br b).current = .scheduled := by
    rw [hbr]
    exact scheduled
  split
  · exact freed.takeChange ‹_›
  · rename_i pending
    refine Cycling.continueCycle ?_ (freed.running mode)
    exact ⟨freed.supply, freed.usable, mode, (Freed.settled pending).trans mode, freed.wait,
      (freed.resting.cycling mode freed.wait).2, freed.resting.slot, freed.resting.line⟩

theorem Freed.afterTransaction (h : Freed (s.br b)) (onDemand : (s.br b).current = .onDemand) :
    BranchOk b ((s.afterTransaction b).br b) := by
  unfold State.afterTransaction
  split
  · exact h.takeChange ‹_›
  · rename_i pending
    obtain ⟨stopped, -⟩ := h.resting.idleCycle (.inl (by rw [onDemand]; decide))
    refine (h.resting.startable h.supply ⟨fun e => absurd e h.on, fun e => ?_⟩ (fun e => ?_) (fun e => ?_) ?_
      (Freed.settled pending)).kick
    · have usable := h.usable
      rw [e] at usable
      cases usable
    · exact absurd (h.usable.symm.trans e) (by decide)
    · exact absurd (h.wait.symm.trans e) (by decide)
    · rw [stopped]
      decide

theorem Freed.afterWork (h : Freed (s.br b)) : BranchOk b ((s.afterWork b).br b) := by
  unfold State.afterWork
  split
  · exact h.afterTransaction ‹_›
  · rename_i out
    refine h.afterSlot ?_
    cases mode : (s.br b).current with
    | off => exact absurd mode h.on
    | scheduled => rfl
    | onDemand => exact absurd mode out

theorem BranchOk.finishWork (h : BranchOk b (s.br b)) (busy : (s.br b).slot.isSome = true) (w : PollWork) :
    BranchOk b ((s.finishWork b w).br b) := by
  obtain ⟨k, hbr⟩ := s.writeBack_rest_br b w
  rw [State.finishWork, State.endWork_eq]
  refine Freed.afterWork ?_
  rw [hbr]
  exact h.freed busy k

/-- A slot of a cycle that holds no poll has ended (R82 to R84). -/
theorem BranchOk.endSlot (h : BranchOk b (s.br b)) {r : SlotRecord} (slot : (s.br b).slot = some r)
    (other : ∀ w, r.work ≠ .poll w) : BranchOk b ((s.endSlot b).br b) := by
  have freed := h.freed (by rw [slot]; rfl) (s.br b).counters
  rw [State.endSlot_eq]
  refine Freed.afterSlot ?_ ?_ <;> rw [State.rest_br]
  · exact freed
  · cases mode : (s.br b).current with
    | off => exact absurd mode freed.on
    | scheduled => rfl
    | onDemand =>
      obtain ⟨w, hw⟩ := h.transaction mode r slot
      exact absurd hw (other w)

/-! ### Attempts -/

/-- The poll slot or transaction in progress goes on (R69, R72, R73). -/
theorem BranchOk.goOn (h : BranchOk b A) {phase : Phase} {w : PollWork} (work : A.pollWork = some (phase, w))
    {slot : SlotRecord} {w' : PollWork} {line : LineUnit} (counters : BranchCounters) (poll : slot.work = .poll w')
    (agrees : lineAgrees b A.cycle.number (some slot) line) :
    BranchOk b { A with counters := counters, slot := some slot, line := line } := by
  obtain ⟨rate, hslot⟩ := BranchState.pollWork_some work
  have busy : A.slot.isSome = true := by rw [hslot]; rfl
  have freed := h.freed busy counters
  exact
    { h with
      supply := h.supply.same rfl rfl
      line := agrees
      noSupply := fun u => absurd (freed.usable.symm.trans u) (by decide)
      running := fun e => ⟨fun _ => freed.running e, fun _ => rfl⟩
      transaction := fun _ r hr => by cases hr; exact ⟨w', poll⟩
      onDemand := fun _ e => (nomatch e)
      change := fun _ => rfl }

theorem BranchOk.endAttempt (h : BranchOk b (s.br b)) {phase : Phase} {w : PollWork}
    (work : (s.br b).pollWork = some (phase, w)) (rate : LineRate) (w' : PollWork) :
    BranchOk b ((s.endAttempt b rate w').br b) := by
  obtain ⟨rate', hslot⟩ := BranchState.pollWork_some work
  unfold State.endAttempt
  split
  · exact h.finishWork (by rw [hslot]; rfl) w'
  · rw [State.beginAttempt_br, State.count_br_same]
    exact h.goOn work _ rfl rfl

theorem BranchOk.count (h : BranchOk b (s.br b)) (f : BranchCounters → BranchCounters) :
    BranchOk b ((s.count b f).br b) := by
  rw [State.count_br_same]
  exact { h with supply := h.supply.same rfl rfl }

theorem BranchOk.failAttempt (h : BranchOk b (s.br b)) {phase : Phase} {w : PollWork}
    (work : (s.br b).pollWork = some (phase, w)) (rate : LineRate) (w' : PollWork) (cls : FailClass) :
    BranchOk b ((s.failAttempt b rate w' cls).br b) :=
  BranchOk.endAttempt (h.count _) (State.countFailure_pollWork work cls) rate _

theorem BranchOk.settleAttempt (h : BranchOk b (s.br b)) {phase : Phase} {w : PollWork}
    (work : (s.br b).pollWork = some (phase, w)) (rate : LineRate) (w' : PollWork) (cls : FailClass)
    (start : QuietFrom) : BranchOk b ((s.settleAttempt b rate w' cls start).br b) := by
  rw [State.settleAttempt, State.onBr_br_same, State.countFailure, State.count_br_same]
  exact h.goOn work _ rfl rfl

/-! ### What a branch hears -/

theorem BranchOk.heardFrame (h : BranchOk b (s.br b)) (f : LineFrame) : BranchOk b ((s.heardFrame b f).br b) := by
  unfold State.heardFrame
  split
  · exact h
  · rename_i rate w hlisten
    have slot := BranchState.listening_some hlisten
    split
    · exact h.finishWork (by rw [slot]; rfl) _
    · exact h.failAttempt (BranchState.pollWork_eq slot) rate w _

theorem BranchOk.heardGap (h : BranchOk b (s.br b)) (a : Byte) : BranchOk b ((s.heardGap b a).br b) := by
  unfold State.heardGap
  split
  · exact h
  · rename_i rate w hlisten
    exact h.failAttempt (BranchState.pollWork_eq (BranchState.listening_some hlisten)) rate w _

theorem BranchOk.heardQuiet (h : BranchOk b (s.br b)) (start : QuietFrom) : BranchOk b ((s.heardQuiet b start).br b) := by
  rcases s.heardQuiet_eq b start with ⟨rate, w, hslot, heq⟩ | ⟨-, heq⟩ <;> rw [heq]
  · have line := h.line
    rw [hslot] at line
    rw [State.onBr_br_same]
    exact h.goOn (BranchState.pollWork_eq hslot) (s.br b).counters rfl line
  · exact h

theorem BranchOk.heardFragment (h : BranchOk b (s.br b)) (a : Byte) (cause : FragmentCause) :
    BranchOk b ((s.heardFragment b a cause).br b) := by
  unfold State.heardFragment
  split
  · split
    · exact h.heardQuiet _
    · exact h
  · rename_i rate w hlisten
    exact h.settleAttempt (BranchState.pollWork_eq (BranchState.listening_some hlisten)) rate w _ _

/-- A line unit that takes characters is one of a slot that listens (R15). -/
theorem BranchOk.listens (h : BranchOk b B) (line : B.line = .hunting ∨ ∃ taken, B.line = .receiving taken) :
    ∃ rate w, B.slot = some { rate := rate, phase := .listening, work := .poll w } := by
  have agrees := h.line
  rcases hslot : B.slot with _ | ⟨rate, phase, work⟩ <;> rw [hslot] at agrees
  · rcases line with e | ⟨taken, e⟩ <;> exact absurd (agrees.symm.trans e) (fun e => nomatch e)
  · cases phase <;> cases work <;> simp only [lineAgrees] at agrees
    case listening.poll w => exact ⟨rate, w, rfl⟩
    all_goals rcases line with e | ⟨taken, e⟩ <;> exact absurd (agrees.symm.trans e) (fun e => nomatch e)

theorem BranchOk.hear (h : BranchOk b B) (line : B.line = .hunting ∨ ∃ taken, B.line = .receiving taken)
    (taken : List Byte) : BranchOk b { B with line := .receiving taken } := by
  obtain ⟨rate, w, hslot⟩ := h.listens line
  have going := h.goOn (BranchState.pollWork_eq hslot) (slot := { rate := rate, phase := .listening, work := .poll w })
    (line := .receiving taken) B.counters rfl (.inr ⟨taken, rfl⟩)
  rwa [← hslot] at going

end
end Sys2Proof.Machine
end

section
/-! PROOFS. Branches: the comparator, the settings of supervision, a fault and a change of mode asked for (R102, R184 to
R189). -/
namespace Sys2Proof.Machine

section
variable {b : Branch} {A B : BranchState} {s t : State}

/-! ### A supply or settings that changed -/

/-- `B` is `A` with another supply or other settings, before its supervisor has acted on them (R167, R184). -/
def Resupplied (A B : BranchState) : Prop :=
  ∃ rate window retries enabled level qualifyTime restoreTime supply, B = { A with
    rate := rate, odWindow := window, odRetries := retries, supply := supply
    sup := { A.sup with enabled := enabled, level := level, qualifyTime := qualifyTime, restoreTime := restoreTime } }

/-- The supervisor's own fields are as they were. -/
theorem Resupplied.sup_eq (h : Resupplied A B) :
    B.sup.state = A.sup.state ∧ B.sup.restore = A.sup.restore ∧ B.sup.qualify = A.sup.qualify ∧
      B.sup.faultMark = A.sup.faultMark := by
  obtain ⟨_, _, _, _, _, _, _, _, rfl⟩ := h
  exact ⟨rfl, rfl, rfl, rfl⟩

/-- A supervisor that goes to a state that is as usable as the one it leaves (R107). -/
theorem BranchOk.supervised (h : BranchOk b A) (hB : Resupplied A B) (v : Supervisor)
    (ok : SupplyOk { B with sup := v }) (disabled : v.state = .disabled ↔ A.sup.state = .disabled)
    (usable : v.state.usable = A.sup.state.usable) (waiting : A.supplyWait = true → v.state = .restorePending) :
    BranchOk b { B with sup := v } := by
  obtain ⟨_, _, _, _, _, _, _, _, rfl⟩ := hB
  exact
    { h with
      supply := ok
      offDisabled := h.offDisabled.trans disabled.symm
      noSupply := fun u => h.noSupply (usable.symm.trans u)
      waiting := waiting }

/-- A supervisor that does not act on what changed. -/
theorem BranchOk.unsupervised (h : BranchOk b A) (hB : Resupplied A B) (ok : SupplyOk B) : BranchOk b B :=
  h.supervised hB B.sup (ok.same rfl rfl) (by rw [hB.sup_eq.1]) (by rw [hB.sup_eq.1])
    fun e => hB.sup_eq.1.trans (h.waiting e)

/-- What a supervisor holds in each of its states (R184, R185, R187 to R189). -/
def BranchState.SupplyRow (B : BranchState) : Prop :=
  match B.sup.state with
  | .disabled => B.sup.qualify = none ∧ B.sup.restore = none ∧ B.sup.faultMark = false
  | .restorePending => B.sup.qualify = none ∧ (B.sup.restore.isSome = true ↔ B.above = true) ∧ B.sup.enabled = true
  | .normal =>
    B.sup.qualify = none ∧ B.sup.restore = none ∧ B.sup.faultMark = false ∧ (B.sup.enabled = true → B.above = true)
  | .lowPending =>
    B.sup.qualify.isSome = true ∧ B.sup.restore = none ∧ B.sup.faultMark = false ∧ B.above = false ∧
      B.sup.enabled = true
  | .fault =>
    B.sup.qualify = none ∧ B.sup.restore = none ∧ B.sup.faultMark = true ∧ B.above = false ∧ B.sup.enabled = true

theorem supplyOk_iff : SupplyOk B ↔ B.SupplyRow := by
  unfold BranchState.SupplyRow
  constructor
  · rintro ⟨hqualify, hrestore, hmarked, hunmarked, hbelow, habove, hdisabled⟩
    split <;> rename_i state <;> simp_all
  · intro h
    split at h <;> rename_i state <;> constructor <;> simp_all

/-- Without supervision the comparator is not looked at (R189). -/
theorem SupplyOk.resupplied_unsupervised (h : SupplyOk A) (hB : Resupplied A B)
    (state : A.sup.state = .normal ∨ A.sup.state = .disabled) (disabled : B.sup.enabled = false) : SupplyOk B := by
  obtain ⟨hstate, hrestore, hqualify, hmark⟩ := hB.sup_eq
  rw [supplyOk_iff, BranchState.SupplyRow] at h ⊢
  rw [hstate, hrestore, hqualify, hmark, disabled]
  rcases state with e | e <;> rw [e] at h ⊢
  · exact ⟨h.1, h.2.1, h.2.2.1, fun e => (nomatch e)⟩
  · exact h

/-- The row of a supervisor that has not acted yet, the comparator and supervision as they now are. -/
theorem Resupplied.row (hB : Resupplied A B) (h : SupplyOk A) (above : A.above = B.above)
    (enabled : A.sup.enabled = B.sup.enabled) : SupplyOk B := by
  obtain ⟨hstate, hrestore, hqualify, hmark⟩ := hB.sup_eq
  rw [supplyOk_iff, BranchState.SupplyRow] at h ⊢
  rwa [hstate, hrestore, hqualify, hmark, ← above, ← enabled]

/-! ### The comparator -/

section
variable (h : BranchOk b A) (hB : Resupplied A (s.br b))
include h hB

/-- A rise of the comparator's report (R185). -/
theorem BranchOk.takeRise (above : (s.br b).above = true) (enabled : (s.br b).sup.enabled = true) :
    BranchOk b ((s.takeRise b).br b) := by
  obtain ⟨hstate, hrestore, hqualify, hmark⟩ := hB.sup_eq
  have row := supplyOk_iff.1 h.supply
  unfold BranchState.SupplyRow at row
  unfold State.takeRise
  split <;> rename_i state <;> rw [← hstate, state] at row <;> have was := hstate.symm.trans state <;>
    rw [← hqualify, ← hrestore, ← hmark] at row
  · rw [State.onSup_br_same]
    refine h.supervised hB _ (supplyOk_iff.2 ?_) (by rw [was, state]) (by rw [was, state]) fun _ => state
    rw [BranchState.SupplyRow]
    simp only [state]
    exact ⟨row.1, ⟨fun _ => above, fun _ => rfl⟩, enabled⟩
  · refine BranchOk.count ?_ _
    rw [State.onSup_br_same]
    refine h.supervised hB _ (supplyOk_iff.2 ?_) (by simp [was]) (by rw [was]; rfl) fun e => ?_
    · exact ⟨rfl, row.2.1, row.2.2.1, fun _ => above⟩
    · exact absurd (was.symm.trans (h.waiting e)) (by decide)
  · rw [State.onSup_br_same]
    refine h.supervised hB _ (supplyOk_iff.2 ?_) (by simp [was]) (by rw [was]; rfl) fun _ => rfl
    exact ⟨row.1, ⟨fun _ => above, fun _ => rfl⟩, enabled⟩
  all_goals
    refine h.unsupervised hB (supplyOk_iff.2 ?_)
    rw [BranchState.SupplyRow]
    simp only [state]
  · exact ⟨row.1, row.2.1, row.2.2.1, fun _ => above⟩
  · exact row

/-- A fall of the comparator's report (R185). -/
theorem BranchOk.takeFall (below : (s.br b).above = false) (enabled : (s.br b).sup.enabled = true) :
    BranchOk b ((s.takeFall b).br b) := by
  obtain ⟨hstate, hrestore, hqualify, hmark⟩ := hB.sup_eq
  have row := supplyOk_iff.1 h.supply
  unfold BranchState.SupplyRow at row
  unfold State.takeFall
  split <;> rename_i state <;> rw [← hstate, state] at row <;> have was := hstate.symm.trans state <;>
    rw [← hqualify, ← hrestore, ← hmark] at row
  · rw [State.onSup_br_same]
    refine h.supervised hB _ (supplyOk_iff.2 ?_) (by rw [was, state]) (by rw [was, state]) fun _ => state
    rw [BranchState.SupplyRow]
    simp only [state]
    exact ⟨row.1, ⟨fun e => (nomatch e), fun e => absurd (below.symm.trans e) (by decide)⟩, enabled⟩
  · rw [State.onSup_br_same]
    refine h.supervised hB _ (supplyOk_iff.2 ?_) (by simp [was]) (by rw [was]; rfl) fun e => ?_
    · exact ⟨rfl, row.2.1, row.2.2.1, below, enabled⟩
    · exact absurd (was.symm.trans (h.waiting e)) (by decide)
  all_goals
    refine h.unsupervised hB (supplyOk_iff.2 ?_)
    rw [BranchState.SupplyRow]
    simp only [state]
  · exact ⟨row.1, row.2.1, row.2.2.1, below, enabled⟩
  · exact ⟨row.1, row.2.1, row.2.2.1, below, enabled⟩
  · exact row

/-- Supervision being enabled, the supervisor takes the change of the comparator's report that a supply or a level makes
(R185, R189); not being, it stays as it was. -/
theorem BranchOk.compare (same : (s.br b).sup.enabled = A.sup.enabled) : BranchOk b ((s.compare b A.above).br b) := by
  unfold State.compare
  dsimp only
  split
  · rename_i enabled
    split
    · exact h.takeRise hB ‹_› enabled
    · exact h.takeFall hB ‹_› enabled
    · rename_i was now
      exact h.unsupervised hB (hB.row h.supply (was.trans now.symm) same.symm)
    · rename_i was now
      exact h.unsupervised hB (hB.row h.supply (was.trans now.symm) same.symm)
  · rename_i disabled
    have disabled : (s.br b).sup.enabled = false := by simpa using disabled
    refine h.unsupervised hB (SupplyOk.resupplied_unsupervised h.supply hB ?_ disabled)
    exact h.supply.disabled (same.symm.trans disabled)

end

/-! ### Supervision written -/

/-- The settings of a WRITE BRANCH change no more than a supervisor can find changed (R167). -/
theorem resupplied_settings (A : BranchState) (w : BranchWrite) : Resupplied A (A.settings w) :=
  ⟨_, _, _, _, _, _, _, A.supply, rfl⟩

theorem resupplied_supply (A : BranchState) (x : Fin 9) : Resupplied A { A with supply := x } :=
  ⟨A.rate, A.odWindow, A.odRetries, A.sup.enabled, A.sup.level, A.sup.qualifyTime, A.sup.restoreTime, x, rfl⟩

section
variable (h : BranchOk b A) (hB : Resupplied A (s.br b))
include h hB

/-- A branch out of OFF without a usable supply rests, whatever its settings (R107). -/
theorem BranchOk.resting_unusable (unusable : A.sup.state.usable = false) :
    Resting (s.br b) ∧ (s.br b).queue = [] ∧ (s.br b).requested = (s.br b).current ∧
      (s.br b).cycle.phase ≠ .running := by
  obtain ⟨queue, slot⟩ := h.noSupply unusable
  have rest := h.resting slot
  have settled := h.settled slot
  have phase : A.cycle.phase ≠ .running := fun e => by
    by_cases mode : A.current = .scheduled
    · have busy := (h.running mode).2 e
      rw [slot] at busy
      cases busy
    · rw [(h.idleCycle (.inl mode)).1] at e
      cases e
  obtain ⟨_, _, _, _, _, _, _, _, hbr⟩ := hB
  rw [hbr]
  exact ⟨{ rest with }, queue, settled, phase⟩

/-- Supervision disabled: a supervisor that waits or is in FAULT reaches NORMAL, one that is LOW_PENDING is NORMAL
(R189). -/
theorem BranchOk.disableSupervision (disabled : (s.br b).sup.enabled = false) :
    BranchOk b ((s.disableSupervision b).br b) := by
  obtain ⟨hstate, hrestore, hqualify, hmark⟩ := hB.sup_eq
  have row := supplyOk_iff.1 h.supply
  unfold BranchState.SupplyRow at row
  have normal : A.sup.state.usable = false → A.sup.state ≠ .disabled → A.sup.qualify = none →
      BranchOk b ((s.reachNormal b).br b) := fun unusable powered qualify => by
    obtain ⟨rest, queue, settled, phase⟩ := h.resting_unusable hB unusable
    refine rest.reachNormal queue (hqualify.trans qualify) (fun e => ?_) (fun e => ?_) settled phase
    · exact absurd (disabled.symm.trans e) (by decide)
    · obtain ⟨_, _, _, _, _, _, _, _, hbr⟩ := hB
      rw [hbr] at e
      exact powered (h.offDisabled.1 e)
  unfold State.disableSupervision
  split <;> rename_i state <;> rw [← hstate, state] at row <;> have was := hstate.symm.trans state
  · exact normal (by rw [was]; rfl) (by rw [was]; decide) row.1
  · exact normal (by rw [was]; rfl) (by rw [was]; decide) row.1
  · rw [State.onSup_br_same]
    refine h.supervised hB _ (supplyOk_iff.2 ?_) (by simp [was]) (by rw [was]; rfl) fun e => ?_
    · exact ⟨rfl, hrestore.trans row.2.1, hmark.trans row.2.2.1,
        fun e => absurd (disabled.symm.trans e) (by decide)⟩
    · exact absurd (was.symm.trans (h.waiting e)) (by decide)
  all_goals
    refine h.unsupervised hB (SupplyOk.resupplied_unsupervised h.supply hB ?_ disabled)
    simp [was]

/-- Supervision enabled: a NORMAL supervisor whose comparator reports below is LOW_PENDING (R189). -/
theorem BranchOk.enableSupervision (wasDisabled : A.sup.enabled = false) (enabled : (s.br b).sup.enabled = true) :
    BranchOk b ((s.enableSupervision b).br b) := by
  obtain ⟨hstate, hrestore, hqualify, hmark⟩ := hB.sup_eq
  have row := supplyOk_iff.1 h.supply
  unfold BranchState.SupplyRow at row
  unfold State.enableSupervision
  split
  · rename_i low
    obtain ⟨state, below⟩ := low
    have below : (s.br b).above = false := by simpa using below
    have was := hstate.symm.trans state
    rw [was] at row
    rw [State.onSup_br_same]
    refine h.supervised hB _ (supplyOk_iff.2 ?_) (by simp [was]) (by rw [was]; rfl) fun e => ?_
    · exact ⟨rfl, hrestore.trans row.2.1, hmark.trans row.2.2.1, below, enabled⟩
    · exact absurd (was.symm.trans (h.waiting e)) (by decide)
  · rename_i notLow
    refine h.unsupervised hB (supplyOk_iff.2 ?_)
    rw [BranchState.SupplyRow]
    rcases h.supply.disabled wasDisabled with was | was <;> rw [was] at row <;> have state := hstate.trans was <;>
      rw [state, hqualify, hrestore, hmark]
    · refine ⟨row.1, row.2.1, row.2.2.1, fun _ => ?_⟩
      by_contra below
      exact notLow ⟨state, by simpa using below⟩
    · exact row

end

/-- The settings of a branch written, and their effect on its supervisor (R189, log 13). -/
theorem BranchOk.applyBranch (h : BranchOk b (s.br b)) (w : BranchWrite) : BranchOk b ((s.applyBranch b w).br b) := by
  unfold State.applyBranch
  dsimp only
  have hB : Resupplied (s.br b) ((s.onBr b fun B => B.settings w).br b) := by
    rw [State.onBr_br_same]
    exact resupplied_settings _ w
  split <;> rename_i was now
  · exact h.disableSupervision hB now
  · exact h.enableSupervision hB was now
  · exact h.compare hB (now.trans was.symm)
  · exact h.unsupervised hB (SupplyOk.resupplied_unsupervised h.supply hB (h.supply.disabled was) now)

/-! ### A fault -/

theorem State.abandon_br (s : State) (b : Branch) :
    (s.abandon b).br b = { s.br b with slot := none, line := .quiet } := by
  unfold State.abandon
  dsimp only
  split
  · exact State.onBr_br_same ..
  · rw [State.convert_br]
    exact State.onBr_br_same ..

/-- The part once supervisor `b` is in FAULT, before a change of mode that waited (R187). -/
def State.faulted (s : State) (b : Branch) : State :=
  ((((s.onSup b fun v => { v with state := .fault, qualify := none, faultMark := true }).signal b .supplyFault).abandon b
    ).flushQueue b .lineFault).faultCycle b

theorem State.enterFault_eq (s : State) (b : Branch) :
    s.enterFault b = if ((s.faulted b).br b).changePending then (s.faulted b).takeChange b else s.faulted b := rfl

theorem State.faulted_br (s : State) (b : Branch) :
    (s.faulted b).br b = { s.br b with
      slot := none, line := .quiet, queue := []
      sup := { (s.br b).sup with state := .fault, qualify := none, faultMark := true }
      cycle := if (s.br b).cycle.phase = .running then { (s.br b).cycle with phase := .waiting, late := false }
        else (s.br b).cycle } := by
  rw [State.faulted, State.faultCycle, State.onCycle_br_same, State.flushQueue_br, State.abandon_br, State.signal_br,
    State.onSup_br_same]

/-- A LOW_PENDING supervisor whose qualify timer expires (R187). -/
theorem BranchOk.enterFault (h : BranchOk b (s.br b)) (low : (s.br b).sup.state = .lowPending) :
    BranchOk b ((s.enterFault b).br b) := by
  have hbr := s.faulted_br b
  have row := supplyOk_iff.1 h.supply
  unfold BranchState.SupplyRow at row
  rw [low] at row
  have noWait : (s.br b).supplyWait = false := by
    by_contra hne
    exact absurd (low.symm.trans (h.waiting (by simpa using hne))) (by decide)
  have on : (s.br b).current ≠ .off := fun e => absurd (low.symm.trans (h.offDisabled.1 e)) (by decide)
  have stopped : (s.br b).current ≠ .scheduled →
      (s.br b).cycle.phase = .stopped ∧ (s.br b).cycle.timer = none := fun e => h.idleCycle (.inl e)
  have rest : Resting ((s.faulted b).br b) := by
    rw [hbr]
    by_cases running : (s.br b).cycle.phase = .running
    · rw [if_pos running]
      have scheduled : (s.br b).current = .scheduled := by
        by_contra e
        exact absurd ((stopped e).1.symm.trans running) (by decide)
      exact ⟨rfl, rfl, fun e => absurd e (by simp [scheduled, noWait]),
        fun e _ => ⟨by simp, (h.cycling e noWait).2⟩, fun e => (nomatch e), h.swap⟩
    · rw [if_neg running]
      exact ⟨rfl, rfl, h.idleCycle, h.cycling, h.late, h.swap⟩
  have supply : SupplyOk ((s.faulted b).br b) := by
    rw [hbr]
    exact supplyOk_iff.2 ⟨rfl, row.2.1, rfl, row.2.2.2.1, row.2.2.2.2⟩
  have offDisabled : ((s.faulted b).br b).current = .off ↔ ((s.faulted b).br b).sup.state = .disabled := by
    rw [hbr]
    exact ⟨fun e => absurd e on, fun e => (nomatch e)⟩
  have queue : ((s.faulted b).br b).queue = [] := by rw [hbr]
  have waiting : ((s.faulted b).br b).supplyWait = true → ((s.faulted b).br b).sup.state = .restorePending := fun e => by
    rw [hbr] at e
    exact absurd (noWait.symm.trans e) (by decide)
  rw [State.enterFault_eq]
  split
  · exact rest.takeChange supply offDisabled (fun _ => queue) waiting ‹_›
  · rename_i settled
    refine rest.ok supply offDisabled (fun _ => queue) waiting ?_ (Freed.settled settled)
    rw [hbr]
    dsimp only
    split <;> simp_all

/-! ### A change of mode asked for -/

/-- The requested mode recorded, and the change taken at once on an idle branch (R102, R103). -/
theorem BranchOk.requestMode (h : BranchOk b (s.br b)) (m : Mode) : BranchOk b ((s.requestMode b m).br b) := by
  unfold State.requestMode
  dsimp only
  generalize ht : (s.onBr b fun B => { B with requested := m }) = t
  have hbr : t.br b = { s.br b with requested := m } := by rw [← ht, State.onBr_br_same]
  split
  · rename_i idle
    obtain ⟨pending, slot⟩ := idle
    have slot : (s.br b).slot = none := by
      rw [hbr] at slot
      exact Option.isNone_iff_eq_none.1 slot
    refine Resting.takeChange ?_ ?_ ?_ ?_ ?_ pending <;> rw [hbr]
    · exact { h.resting slot with }
    · exact h.supply.same rfl rfl
    · exact h.offDisabled
    · exact fun u => (h.noSupply u).1
    · exact h.waiting
  · rename_i busy
    have change : (t.br b).changePending = true → (t.br b).slot.isSome = true := fun pending => by
      by_contra none
      exact busy ⟨pending, by simpa using none⟩
    rw [hbr] at change ⊢
    exact { h with supply := h.supply.same rfl rfl, change := change }

end
end Sys2Proof.Machine
end

section
/-! PROOFS. Branches: every row, relay, request, reset and tick leaves every branch as it should be, and the statement. -/
namespace Sys2Proof.Machine

section
variable {b : Branch} {A B : BranchState} {s t : State}

/-! ### Rows of a branch -/

/-- Commands leave a queue (R57, R97). -/
theorem BranchOk.cull (h : BranchOk b A) {queue : List Command} (empty : A.queue = [] → queue = []) :
    BranchOk b { A with queue := queue } :=
  { h with
    supply := h.supply.same rfl rfl
    noSupply := fun u => ⟨empty (h.noSupply u).1, (h.noSupply u).2⟩
    onDemand := fun mode slot => empty (h.onDemand mode slot) }

theorem BranchOk.expireDue (h : BranchOk b (s.br b)) : BranchOk b ((s.expireDue b).br b) := by
  rw [State.expireDue, State.expireAll_br, State.onBr_br_same]
  exact h.cull fun e => by rw [e]; rfl

/-- A tick of the cycle timer, in each cycle state (R53). -/
theorem BranchOk.tickEngine (h : BranchOk b (s.br b)) (running : (s.br b).cycle.timer.isSome = true) :
    BranchOk b (((s.startTimer b).tickEngine b).br b) := by
  generalize ht : s.startTimer b = t
  have hbr : t.br b = { s.br b with cycle := { (s.br b).cycle with timer := some 0 } } := by
    rw [← ht, State.startTimer, State.onCycle_br_same]
  have active : (s.br b).current = .scheduled ∧ (s.br b).supplyWait = false := by
    by_contra idle
    rw [(h.idleCycle (by by_contra e; push Not at e; exact idle ⟨e.1, by simpa using e.2⟩)).2] at running
    cases running
  obtain ⟨scheduled, wait⟩ := active
  have ok : BranchOk b (t.br b) := by
    rw [hbr]
    exact
      { h with
        supply := h.supply.same rfl rfl
        idleCycle := fun e => absurd e (by
          show ¬((s.br b).current ≠ .scheduled ∨ (s.br b).supplyWait = true)
          simp [scheduled, wait])
        cycling := fun _ _ => ⟨(h.cycling scheduled wait).1, rfl⟩ }
  have scheduled : (t.br b).current = .scheduled := by rw [hbr]; exact scheduled
  have wait : (t.br b).supplyWait = false := by rw [hbr]; exact wait
  unfold State.tickEngine
  split
  · exact ok
  · rename_i phase
    have slot : (t.br b).slot = none := by
      by_contra busy
      have := (ok.running scheduled).1 (Option.isSome_iff_ne_none.2 busy)
      exact absurd (phase.symm.trans this) (by decide)
    have settled := ok.settled slot
    split
    · rename_i usable
      exact Cycling.cycleStart ⟨ok.supply, usable, scheduled, settled.trans scheduled, wait, (ok.cycling scheduled wait).2,
        slot, ok.line_of_idle slot⟩
    · rename_i unusable
      have unusable : (t.br b).sup.state.usable = false := by simpa using unusable
      have late : (t.br b).cycle.late = false := by
        by_contra late
        exact absurd (phase.symm.trans (ok.late (by simpa using late))) (by decide)
      obtain ⟨bank, hswap⟩ := t.takePendingSwap_br b
      rw [State.suspendedCycle_eq, State.onBr_br_same, hswap]
      refine Resting.ok ⟨slot, ok.line_of_idle slot, fun e => ?_, fun _ _ => ⟨by simp, (ok.cycling scheduled wait).2⟩,
        fun e => ?_, fun e => (nomatch e)⟩ (ok.supply.same rfl rfl) ok.offDisabled
        (fun _ => (ok.noSupply unusable).1) ok.waiting (by simp) settled
      · exact absurd e (by
          show ¬((t.br b).current ≠ .scheduled ∨ (t.br b).supplyWait = true)
          simp [scheduled, wait])
      · exact absurd (late.symm.trans e) (by decide)
  · rename_i phase
    rw [State.onCycle_br_same]
    exact { ok with supply := ok.supply.same rfl rfl, late := fun _ => phase }

theorem BranchesOk.same (h : BranchesOk s) (branches : t.branches = s.branches) : BranchesOk t := fun b => by
  rw [State.br, branches]
  exact h b

theorem BranchesOk.delivery (hs : BranchesOk s) (h : DeliveryStep s t) : BranchesOk t := hs.same h.branches

/-- A step of one branch that leaves it as it should be leaves every branch so. -/
theorem BranchesOk.branch (hs : BranchesOk s) (step : BranchStep b s t) (ok : BranchOk b (t.br b)) : BranchesOk t :=
  fun c => by
    by_cases hc : c = b
    · subst hc; exact ok
    · rw [step.others c hc]; exact hs c

theorem BranchesOk.onBr (hs : BranchesOk s) {f : BranchState → BranchState} (ok : BranchOk b (f (s.br b))) :
    BranchesOk (s.onBr b f) := fun c => by
  by_cases hc : c = b
  · subst hc; rw [State.onBr_br_same]; exact ok
  · rw [State.onBr_br_other _ _ hc]; exact hs c

/-- A supply that changed, and the supervisor's answer to it (R185). -/
theorem BranchesOk.supplied (hs : BranchesOk s) (x : Fin 9) :
    BranchesOk ((s.onBr b fun B => { B with supply := x }).compare b (s.br b).above) := fun c => by
  by_cases hc : c = b
  · subst hc
    refine (hs c).compare ?_ ?_ <;> rw [State.onBr_br_same]
    exact resupplied_supply _ x
  · rw [(branchStep_compare _).others c hc, State.onBr_br_other _ _ hc]
    exact hs c

theorem BranchesOk.row {c : Instr} (hs : BranchesOk s) (row : branchRow c = some b) (h : exec c s = .next t) :
    BranchesOk t := by
  have hb := hs b
  have chosen : ∀ {u}, BranchStep b s u → BranchOk b (u.br b) → BranchesOk u.choice := fun step ok =>
    (hs.branch step ok).delivery deliveryStep_choice
  cases c <;> cases row <;> cases h
  case cycleTick =>
    split
    · exact hs
    · rename_i n timer
      exact chosen (branchStep_startTimer.trans branchStep_tickEngine) (hb.tickEngine (by rw [timer]; rfl))
  case commandExpiry => exact chosen branchStep_expireDue hb.expireDue
  case attemptFrameSent =>
    split
    · rename_i rate w hslot
      exact hs.onBr (hb.goOn (BranchState.pollWork_eq hslot) (s.br b).counters rfl (.inl rfl))
    · exact hs
  case nothingHeard =>
    split
    · rename_i rate w hslot _
      exact chosen (branchStep_failAttempt _ _ _) (hb.failAttempt (BranchState.pollWork_eq hslot) rate w _)
    · exact hs
  case branchReplyComplete f => exact chosen (branchStep_heardFrame f) (hb.heardFrame f)
  case branchFragment a cause => exact hs.branch (branchStep_heardFragment a cause) (hb.heardFragment a cause)
  case branchGap a => exact chosen (branchStep_heardGap a) (hb.heardGap a)
  case settlingEnd =>
    split
    · rename_i rate w hslot
      exact chosen (branchStep_endAttempt _ _) (hb.endAttempt (BranchState.pollWork_eq hslot) rate w)
    · exact hs
  case syncSlotEnd =>
    split
    · rename_i hslot
      exact chosen branchStep_endSlot (hb.endSlot hslot fun _ e => (nomatch e))
    · exact hs
  case gapSlotEnd =>
    split
    · rename_i hslot
      exact chosen branchStep_endSlot (hb.endSlot hslot fun _ e => (nomatch e))
    · exact hs
  case supplyRise above => exact hs.supplied _
  case supplyFall above => exact hs.supplied _
  case qualifyTimerExpiry =>
    split
    · rename_i low _
      exact chosen branchStep_enterFault (hb.enterFault low)
    · exact hs
  case restoreTimerExpiry =>
    split
    · rename_i state timer
      refine chosen branchStep_reachNormal ?_
      have hB : Resupplied (s.br b) (s.br b) := resupplied_supply _ (s.br b).supply
      obtain ⟨rest, queue, settled, phase⟩ := hb.resting_unusable hB (by rw [state]; rfl)
      have row := supplyOk_iff.1 hb.supply
      rw [BranchState.SupplyRow, state] at row
      refine rest.reachNormal queue row.1 (fun _ => row.2.1.1 (by rw [timer]; rfl)) (fun e => ?_) settled phase
      exact absurd (state.symm.trans (hb.offDisabled.1 e)) (by decide)
    · exact hs
  case branchCharacter marker v =>
    split
    · exact hs
    · exact hs.branch (branchStep_heardQuiet _) (hb.heardQuiet _)
    · rename_i line
      split
      · exact hs.onBr (f := fun B => { B with line := .receiving [v] }) (hb.hear (.inl line) [v])
      · exact hs
    · rename_i taken line
      split
      · exact hs.branch (branchStep_heardFragment _ _) (hb.heardFragment _ _)
      · split
        · exact hs.branch (branchStep_heardFragment _ _) (hb.heardFragment _ _)
        · rename_i f _
          exact chosen (branchStep_heardFrame f) (hb.heardFrame f)
        · rename_i more _
          exact hs.onBr (f := fun B => { B with line := .receiving more }) (hb.hear (.inr ⟨taken, line⟩) more)

/-! ### Relays and requests -/

theorem BranchesOk.accept (hs : BranchesOk s) (c : Command) (usable : (s.br b).sup.state.usable = true) :
    BranchesOk (s.accept b c) := fun d => by
  by_cases hd : d = b
  · subst hd
    refine Startable.kick ?_
    have queued := (hs d).queued ((s.br d).queue ++ [c]) usable
    rw [State.count_br_same, State.onBr_br_same, State.reserve_br]
    exact ⟨{ queued.emptied with supply := queued.emptied.supply.same rfl rfl }, queued.queue⟩
  · rw [(work_accept (R := fun _ => True) c).1.others d hd, State.onBr_br_other _ _ hd]
    exact hs d

theorem BranchesOk.takeRelay (hs : BranchesOk s) (node : Nat) (tag : Byte) (payload : List Byte) :
    BranchesOk (s.takeRelay node tag payload) := by
  rcases s.takeRelay_cases node tag payload with h | ⟨-, status, h⟩ | ⟨r, -, -, -, -, -, usable, -, h⟩ <;> rw [h]
  · exact hs.same rfl
  · exact hs.same rfl
  · exact hs.accept _ usable

theorem BranchesOk.purgeQueue (hs : BranchesOk s) (a : Nat) (b : Branch) : BranchesOk (s.purgeQueue a b) :=
  hs.branch (branchStep_purgeQueue a) (by
    rw [State.purgeQueue, State.convertAll_br, State.onBr_br_same]
    exact (hs b).cull fun e => by rw [e]; rfl)

theorem BranchesOk.purgeAll (hs : BranchesOk s) (a : Nat) : BranchesOk (s.purgeAll a) :=
  (((hs.purgeQueue a .b0).purgeQueue a .b1).purgeQueue a .b2).purgeQueue a .b3

theorem BranchOk.onStandby (h : BranchOk b B) (f : Bank → Bank) : BranchOk b (B.onStandby f) := by
  unfold BranchState.onStandby
  split <;> exact { h with supply := h.supply.same rfl rfl }

theorem BranchesOk.carried (h : Carried s t) (hs : BranchesOk s) : BranchesOk t := by
  cases h with
  | branch b w d =>
    intro c
    by_cases hc : c = b
    · subst hc; exact (hs c).applyBranch d
    · rw [(work_applyBranch (R := fun _ => True) d).1.others c hc, State.onBr_br_other _ _ hc]
      exact hs c
  | updated r hr w d =>
    unfold State.updateRecord
    dsimp only
    split <;> exact hs.same rfl
  | header b => exact hs.onBr ((hs b).onStandby _)
  | entry b => exact hs.onBr ((hs b).onStandby _)
  | deleted a => exact BranchesOk.purgeAll (s := { s with nodes := removeNode a s.nodes }) (hs.same rfl) a
  | purged a => exact hs.purgeAll a
  | swapAsked b mode =>
    exact hs.onBr (f := fun B => { B with swapPending := true })
      { hs b with supply := (hs b).supply.same rfl rfl, swap := fun _ => mode }
  | swapped b =>
    refine hs.branch branchStep_takeSwap ?_
    rw [State.takeSwap, State.signal_br, State.onBr_br_same]
    exact { hs b with supply := (hs b).supply.same rfl rfl, swap := fun e => (nomatch e) }
  | mode b m => exact hs.branch (branchStep_requestMode m) ((hs b).requestMode m)
  | counters g =>
    cases g with
    | branch b =>
      exact hs.onBr (f := fun B => { B with counters := BranchCounters.zero })
        { hs b with supply := (hs b).supply.same rfl rfl }
    | device => exact hs.same rfl
  | _ => exact hs.same rfl

theorem BranchesOk.respond (hs : BranchesOk s) (tag : Byte) (r : Reply) : BranchesOk (s.respond tag r) := by
  rcases s.respond_cases tag r with ⟨-, -, h⟩ | ⟨-, h⟩ <;> rw [h] <;> exact hs.same rfl

/-! ### Resets -/

theorem branchOk_reset (b : Branch) (x : Fin 9) : BranchOk b (BranchState.reset x) := by
  refine Resting.ok ⟨rfl, rfl, fun _ => ⟨rfl, rfl⟩, fun e => (nomatch e), fun e => (nomatch e), fun e => (nomatch e)⟩
    (supplyOk_iff.2 ⟨rfl, rfl, rfl⟩) ⟨fun _ => rfl, fun _ => rfl⟩ (fun _ => rfl) (fun e => (nomatch e))
    (fun e => nomatch e) rfl

theorem branchesOk_hardReset (s : State) (cause : RestartCause) (sa : Fin 8) (tr : Fin 4) :
    BranchesOk (s.hardReset cause sa tr) := fun b => by
  have hbr : (s.hardReset cause sa tr).br b = BranchState.reset (s.br b).supply := Per.get_map ..
  rw [hbr]
  exact branchOk_reset b _

/-- A branch after a warm restart, its supervisor having acted (R63, R114, R190). -/
theorem BranchOk.restartSupply (h : BranchOk b A) (hbr : s.br b = A.restarted) :
    BranchOk b ((s.restartSupply b).br b) := by
  unfold State.restartSupply
  split <;> rename_i mode
  · have off : A.current = .off := by rw [hbr] at mode; exact mode
    rw [hbr]
    refine Resting.ok ⟨rfl, rfl, fun _ => ⟨rfl, rfl⟩, fun e => ?_, fun e => (nomatch e), fun e => (nomatch e)⟩
      (h.supply.same rfl rfl) h.offDisabled (fun _ => rfl) (fun e => (nomatch e)) (fun e => nomatch e) rfl
    exact absurd (off.symm.trans e) (by decide)
  · refine Resting.awaitSupply ?_ ?_ mode ?_ <;> rw [hbr]
    · exact ⟨rfl, rfl, fun _ => ⟨rfl, rfl⟩, fun _ e => (nomatch e), fun e => (nomatch e), fun e => (nomatch e)⟩
    · rfl
    · rfl

theorem State.restartSupply_br_other {c : Branch} (hc : c ≠ b) (s : State) : (s.restartSupply b).br c = s.br c :=
  (work_restartSupply (s := s) b fun _ => True).1.others c hc

theorem BranchesOk.warmRestart (hs : BranchesOk s) : BranchesOk s.warmRestart := fun b => by
  have hbr : s.restartedPart.br b = (s.br b).restarted := Per.get_map ..
  rw [State.warmRestart_eq]
  cases b
  case b0 =>
    iterate 3 rw [State.restartSupply_br_other (by decide)]
    exact (hs .b0).restartSupply hbr
  case b1 =>
    iterate 2 rw [State.restartSupply_br_other (by decide)]
    exact (hs .b1).restartSupply (by rwa [State.restartSupply_br_other (by decide)])
  case b2 =>
    rw [State.restartSupply_br_other (by decide)]
    refine (hs .b2).restartSupply ?_
    iterate 2 rw [State.restartSupply_br_other (by decide)]
    exact hbr
  case b3 =>
    refine (hs .b3).restartSupply ?_
    iterate 3 rw [State.restartSupply_br_other (by decide)]
    exact hbr

/-! ### Every command and every tick -/

theorem kept_branchesOk : Kept (fun _ _ => True) BranchesOk where
  reset s cause sa tr _ := branchesOk_hardReset s cause sa tr
  hunt _ _ hs := hs.same rfl
  begin _ _ _ hs := hs.same rfl
  append _ _ _ _ _ _ hs := hs.same rfl
  choice _ hs := hs.delivery deliveryStep_choice
  recover _ hs := hs.delivery deliveryStep_recover
  ack _ next payload _ hs := hs.delivery (deliveryStep_takeAck next payload)
  relay _ node tag payload hs := hs.takeRelay node tag payload
  manage _ tag r hs := keeps_manage tag r hs (fun _ _ hs => hs.same rfl) (fun _ _ => BranchesOk.carried)
    fun _ hs => hs.respond tag _
  restart _ hs := hs.warmRestart
  free _ hs := hs.same rfl
  expire _ _ hs := hs.delivery deliveryStep_expire
  branch _ _ _ _ _ row h hs := hs.row row h

theorem BranchOk.tick (h : BranchOk b B) : BranchOk b B.tick := by
  have counting : (if reached (countUp B.cycle.timer) B.active.period then some 0 else countUp B.cycle.timer).isSome =
      B.cycle.timer.isSome := by
    cases B.cycle.timer with
    | none => rfl
    | some n => split <;> rfl
  have stopped : B.cycle.timer = none →
      (if reached (countUp B.cycle.timer) B.active.period then some 0 else countUp B.cycle.timer) = none := fun e => by
    rw [e]
    rfl
  have isSome : ∀ t : Option Nat, (countUp t).isSome = t.isSome := fun t => Option.isSome_map
  have ok := h.supply
  exact
    { h with
      supply := ⟨(by rw [BranchState.tick, isSome]; exact ok.qualify), (by rw [BranchState.tick, isSome]; exact ok.restore),
        ok.marked, ok.unmarked, ok.below, ok.above, ok.disabled⟩
      idleCycle := fun e => ⟨(h.idleCycle e).1, stopped (h.idleCycle e).2⟩
      cycling := fun e w => ⟨(h.cycling e w).1, counting.trans (h.cycling e w).2⟩ }

theorem BranchesOk.tick (hs : BranchesOk s) : BranchesOk s.tick := fun b => by
  have hbr : s.tick.br b = (s.br b).tick := Per.get_map ..
  rw [hbr]
  exact (hs b).tick

end
end Sys2Proof.Machine

/-! ### The statement -/

namespace Sys2Proof.Invariants
open Sys2Proof.Machine

/-- Settles O55: each operation of an engine or supervisor leaves its branch as it should be, and no other branch is
touched. -/
theorem branchesKept : Obligations.BranchesKept := by
  intro s t hs h
  rcases step_cases h with ⟨-, rfl⟩ | ⟨c, rest, -, hexec⟩
  · exact hs.tick
  · exact kept_branchesOk.exec trivial hexec (hs.same rfl)

end Sys2Proof.Invariants
end

section
/-! PROOFS. The pool: the credit count is the commands owed, and the ceilings hold, through every move of a branch and every
act of the Delivery Unit (R117 to R125). -/
namespace Sys2Proof.Machine

section
variable {b : Branch} {A B : BranchState} {s t : State} {k : Nat}

/-! ### The pool and the credits seen from one branch -/

/-- The pool within its ceilings, no ALERT waiting, and a credit for each command of branch `b` beside the `k` credits of
the other branches (R117 to R125). -/
structure Stocked (k : Nat) (b : Branch) (s : State) : Prop where
  credits   : s.credits = k + (s.br b).owed
  room      : s.occupancy ≤ poolSize
  responses : s.queuedCount .mgmtResp ≤ responseLimit
  reports   : s.reportsHeld ≤ reportCeiling
  alerts    : s.queuedCount .alert = 0

/-- The commands that the other branches owe a RESULT for. -/
def State.owedBeside (s : State) : Branch → Nat
  | .b0 => (s.br .b1).owed + (s.br .b2).owed + (s.br .b3).owed
  | .b1 => (s.br .b0).owed + (s.br .b2).owed + (s.br .b3).owed
  | .b2 => (s.br .b0).owed + (s.br .b1).owed + (s.br .b3).owed
  | .b3 => (s.br .b0).owed + (s.br .b1).owed + (s.br .b2).owed

theorem State.owed_split (s : State) (b : Branch) :
    (s.br .b0).owed + (s.br .b1).owed + (s.br .b2).owed + (s.br .b3).owed = s.owedBeside b + (s.br b).owed := by
  cases b <;> simp only [State.owedBeside] <;> omega

theorem State.owedBeside_of_others (h : ∀ c, c ≠ b → t.br c = s.br c) : t.owedBeside b = s.owedBeside b := by
  cases b <;> simp only [State.owedBeside] <;>
    rw [h _ (by decide), h _ (by decide), h _ (by decide)]

/-- What `PoolOk` says beside the branches. -/
def Stock (s : State) : Prop := ∀ b, Stocked (s.owedBeside b) b s

theorem Stocked.stock (h : Stocked (s.owedBeside b) b s) : Stock s := fun c =>
  { h with credits := h.credits.trans ((s.owed_split b).symm.trans (s.owed_split c)) }

theorem poolOk_iff : PoolOk s ↔ BranchesOk s ∧ Stock s := by
  constructor
  · intro h
    exact ⟨h.branches, Stocked.stock (b := .b0) { h with credits := h.credits.trans (s.owed_split .b0) }⟩
  · rintro ⟨hb, hs⟩
    exact { hs .b0 with branches := hb, credits := (hs .b0).credits.trans (s.owed_split .b0).symm }

/-- With pool, credits and what the branch owes as they were. -/
theorem Stocked.same (h : Stocked k b s) (pool : t.pool = s.pool) (credits : t.credits = s.credits)
    (owed : (t.br b).owed = (s.br b).owed) : Stocked k b t := by
  obtain ⟨h1, h2, h3, h4, h5⟩ := h
  refine ⟨by rw [credits, owed]; exact h1, ?_, ?_, ?_, ?_⟩
  · rw [State.occupancy, pool, credits]; exact h2
  · rw [State.queuedCount, pool]; exact h3
  · rw [State.reportsHeld, pool]; exact h4
  · rw [State.queuedCount, pool]; exact h5

/-- RESULTs join the pool as credits convert, one for one (R122). -/
theorem Stocked.converted (h : Stocked k b s) {results : List Entry} (owed : Nat)
    (class_ : ∀ e ∈ results, e.cls = .result) (count : owed + results.length = (s.br b).owed)
    (pool : t.pool = s.pool ++ results) (credits : t.credits = s.credits - results.length)
    (left : (t.br b).owed = owed) : Stocked k b t := by
  have hcredits := h.credits
  have none : ∀ p : Entry → Bool, (∀ e, e.cls = .result → p e = false) → results.countP p = 0 := fun p hp =>
    List.countP_eq_zero.2 fun e he => by rw [hp e (class_ e he)]; decide
  refine ⟨by rw [credits, left]; omega, ?_, ?_, ?_, ?_⟩
  · have room := h.room
    rw [State.occupancy] at room ⊢
    rw [pool, credits, List.length_append]
    omega
  · rw [State.queuedCount, pool, List.countP_append, none _ (fun e he => by rw [he]; simp)]
    exact h.responses
  · rw [State.reportsHeld, pool, List.countP_append, none _ (fun e he => by rw [he]; rfl)]
    exact h.reports
  · rw [State.queuedCount, pool, List.countP_append, none _ (fun e he => by rw [he]; simp)]
    exact h.alerts

theorem BranchState.owed_same (queue : B.queue = A.queue) (slot : B.slot = A.slot) : B.owed = A.owed := by
  rw [BranchState.owed, BranchState.inFlight, queue, slot]
  rfl

theorem BranchState.owed_eq_length (h : B.inFlight = none) : B.owed = B.queue.length := by
  rw [BranchState.owed, h]
  rfl

theorem BranchState.owed_eq_length_succ {c : InFlight} (h : B.inFlight = some c) : B.owed = B.queue.length + 1 := by
  rw [BranchState.owed, h]
  rfl

theorem BranchState.inFlight_of_idle (h : B.slot = none) : B.inFlight = none := by
  rw [BranchState.inFlight, h]

/-- A slot begun afresh holds no command. -/
theorem SlotWork.Fresh.inFlight {slot : SlotRecord} (h : B.slot = some slot) (fresh : slot.work.Fresh) :
    B.inFlight = none := by
  obtain ⟨rate, phase, work⟩ := slot
  cases work with
  | poll w => exact BranchState.inFlight_poll (BranchState.pollWork_eq h) (fresh w rfl).1
  | sync => rw [BranchState.inFlight, h]
  | gap n => rw [BranchState.inFlight, h]

/-- The command in flight is that of the frame. -/
theorem BranchState.inFlight_isSome_of_frame {p q : Phase} {v w : PollWork} (hA : A.pollWork = some (p, v))
    (hB : B.pollWork = some (q, w)) (frame : w.frame = v.frame) : B.inFlight = A.inFlight := by
  cases h : v.frame with
  | poll => rw [BranchState.inFlight_poll hA h, BranchState.inFlight_poll hB (frame.trans h)]
  | cmd toggle c => rw [BranchState.inFlight_cmd hA h, BranchState.inFlight_cmd hB (frame.trans h)]

/-- A report that is admitted leaves the pool within its ceilings (R124). -/
theorem Stocked.report (h : Stocked k b s) {payload : List Byte} (room : s.occupancy < reportCeiling) :
    Stocked k b (s.addEntry .report payload) := by
  have low : (s.addEntry .report payload).occupancy ≤ reportCeiling := by
    rw [State.addEntry_occupancy]
    exact room
  refine ⟨h.credits, low.trans (by decide), ?_, ?_, ?_⟩
  · rw [State.addEntry_queuedCount]
    exact h.responses
  · refine le_trans ?_ low
    exact (List.countP_le_length).trans (Nat.le_add_right _ _)
  · rw [State.addEntry_queuedCount]
    exact h.alerts

theorem Stocked.move {R : List Byte → Prop} (h : Move b R True s t) (hs : Stocked k b s) : Stocked k b t := by
  cases h with
  | tidy f queue slot =>
    exact hs.same rfl rfl (by rw [State.onBr_br_same]; exact BranchState.owed_same queue slot)
  | events => exact hs.same rfl rfl rfl
  | record => exact hs.same rfl rfl rfl
  | report a number reply bytes room => exact Stocked.same (hs.report room) rfl rfl rfl
  | goOn phase phase' rate w w' line work frame =>
    refine hs.same rfl rfl ?_
    rw [State.onBr_br_same, BranchState.owed, BranchState.inFlight_isSome_of_frame work rfl frame]
    rfl
  | hear => exact hs.same rfl rfl (by rw [State.onBr_br_same]; exact BranchState.owed_same rfl rfl)
  | launch before after c toggle rate w queue free frame =>
    refine hs.same rfl rfl ?_
    rw [State.onBr_br_same, BranchState.owed_eq_length (BranchState.inFlight_of_idle (free trivial)),
      BranchState.owed_eq_length_succ (BranchState.inFlight_cmd rfl frame), queue]
    simp only [List.length_append, List.length_cons]
    omega
  | start slot line free fresh =>
    refine hs.same rfl rfl ?_
    rw [State.onBr_br_same, BranchState.owed_eq_length (BranchState.inFlight_of_idle (free trivial)),
      BranchState.owed_eq_length (fresh.inFlight rfl)]
  | clear none =>
    refine hs.same rfl rfl ?_
    rw [State.onBr_br_same, BranchState.owed_eq_length none, BranchState.owed_eq_length rfl]
  | settle c status reply flight =>
    refine hs.converted (s.br b).queue.length (results := [_]) ?_ (BranchState.owed_eq_length_succ flight).symm rfl rfl ?_
    · intro e he
      rw [List.mem_singleton.1 he]
    · rw [State.convert_br, State.onBr_br_same, BranchState.owed_eq_length rfl]
  | cull status kept gone count =>
    have owed : ∀ q : List Command, BranchState.owed { s.br b with queue := q } =
        q.length + if (s.br b).inFlight.isSome then 1 else 0 := fun _ => rfl
    refine hs.converted (BranchState.owed { s.br b with queue := kept }) (results := gone.map (removedEntry status)) ?_ ?_
      ?_ ?_ ?_
    · intro e he
      obtain ⟨c, -, rfl⟩ := List.mem_map.1 he
      rfl
    · rw [owed, List.length_map, BranchState.owed]
      omega
    · rw [State.convertAll_eq]; rfl
    · rw [State.convertAll_eq, List.length_map]; rfl
    · rw [State.convertAll_br, State.onBr_br_same]

/-- Work of a branch keeps the pool as it should be. -/
theorem Stock.moves {R : List Byte → Prop} (hs : Stock s) (step : BranchStep b s t) (moves : Moves b R True s t) :
    Stock t := by
  refine Stocked.stock (b := b) ?_
  rw [State.owedBeside_of_others step.others]
  exact moves.keeps (fun _ _ => Stocked.move) (hs b)

end
end Sys2Proof.Machine
end

section
/-! PROOFS. The pool, continued: the Delivery Unit, relays, requests and resets, and the statement. -/
namespace Sys2Proof.Machine

section
variable {b : Branch} {s t : State}

/-! ### The Delivery Unit -/

theorem State.owedBeside_of_branches (h : t.branches = s.branches) (b : Branch) : t.owedBeside b = s.owedBeside b :=
  State.owedBeside_of_others fun c _ => by rw [State.br, h]; rfl

/-- With pool, credits and branches as they were. -/
theorem Stock.same (hs : Stock s) (pool : t.pool = s.pool) (credits : t.credits = s.credits)
    (branches : t.branches = s.branches) : Stock t := fun b => by
  rw [State.owedBeside_of_branches branches]
  exact (hs b).same pool credits (by rw [State.br, branches]; rfl)

/-- With a pool that counts no more of anything. -/
theorem Stock.fewer (hs : Stock s) (pool : ∀ p : Entry → Bool, p = (fun _ => true) ∨
    (∃ c, p = fun e => e.isQueued && e.cls == c) ∨ (p = fun e => e.cls == .report) → t.pool.countP p ≤ s.pool.countP p)
    (credits : t.credits = s.credits) (branches : t.branches = s.branches) : Stock t := fun b => by
  have h := hs b
  have length := pool _ (.inl rfl)
  have queued : ∀ c, t.queuedCount c ≤ s.queuedCount c := fun c => pool _ (.inr (.inl ⟨c, rfl⟩))
  simp only [List.countP_true] at length
  refine ⟨?_, ?_, (queued _).trans h.responses, (pool _ (.inr (.inr rfl))).trans h.reports,
    Nat.le_zero.1 ((queued _).trans h.alerts.le)⟩
  · rw [State.owedBeside_of_branches branches, credits, h.credits, State.br, State.br, branches]
  · have room := h.room
    rw [State.occupancy] at room ⊢
    omega

/-- A first transmission makes an entry of its class SENT: the others wait as before, and one less of the class does. -/
theorem State.firstTransmission_counts {c : UplinkClass} (h : s.firstTransmission c = some t) :
    t.pool.length = s.pool.length ∧ t.reportsHeld = s.reportsHeld ∧
      ∀ d, t.queuedCount d + (if d = c then 1 else 0) = s.queuedCount d := by
  obtain ⟨pre, e, post, hpool, ⟨hqueued, hclass⟩, -, rfl⟩ := State.firstTransmission_some h
  refine ⟨?_, ?_, fun d => ?_⟩
  · simp only [hpool, List.length_append, List.length_cons]
  · simp only [State.reportsHeld, hpool, List.countP_append, List.countP_cons]
  · have old : (e.isQueued && e.cls == d) = (d == c) := by
      rw [Entry.isQueued, hqueued, hclass]
      cases c <;> cases d <;> rfl
    have new : ({ e with state := .sent s.du.nextSeq } : Entry).isQueued = false := by rfl
    simp only [State.queuedCount, hpool, List.countP_append, List.countP_cons, old, new, Bool.false_and, beq_iff_eq,
      Bool.false_eq_true, if_false]
    omega

theorem Stock.firstTransmission {c : UplinkClass} (hs : Stock s) (h : s.firstTransmission c = some t) : Stock t := by
  obtain ⟨length, reports, queued⟩ := State.firstTransmission_counts h
  obtain ⟨pre, e, post, hpool, -, -, rfl⟩ := State.firstTransmission_some h
  refine hs.fewer (fun p hp => ?_) rfl rfl
  rcases hp with rfl | ⟨d, rfl⟩ | rfl
  · simp only [List.countP_true]
    exact length.le
  · exact (Nat.le_add_right _ _).trans (queued d).le
  · exact reports.le

/-- An ALERT is admitted where there is room, and sent at once (R125, R139). -/
theorem Stock.alert (hs : Stock s) (room : s.occupancy < poolSize)
    (h : State.firstTransmission { s.addEntry .alert s.eu.snapshot with eu := s.eu.told } .alert = some t) : Stock t := by
  have step := deliveryStep_firstTransmission h
  have branches : t.branches = s.branches := step.branches
  have credits : t.credits = s.credits := step.credits
  obtain ⟨length, reports, queued⟩ := State.firstTransmission_counts h
  have added : ∀ d, State.queuedCount { s.addEntry .alert s.eu.snapshot with eu := s.eu.told } d =
      s.queuedCount d + if UplinkClass.alert = d then 1 else 0 := fun d =>
    State.addEntry_queuedCount s .alert d s.eu.snapshot
  have held : State.reportsHeld { s.addEntry .alert s.eu.snapshot with eu := s.eu.told } = s.reportsHeld := by
    simp [State.reportsHeld]
  intro b
  have hb := hs b
  refine ⟨?_, ?_, ?_, ?_, ?_⟩
  · rw [State.owedBeside_of_branches branches, credits, hb.credits, State.br, State.br, branches]
  · have : t.pool.length = s.pool.length + 1 := by rw [length]; simp
    rw [State.occupancy] at room ⊢
    omega
  · have := queued .mgmtResp
    rw [added] at this
    simp only [reduceCtorEq, if_false] at this
    exact this.le.trans hb.responses
  · rw [reports, held]
    exact hb.reports
  · have := queued .alert
    rw [added, hb.alerts] at this
    simpa using this

theorem Stock.choice (hs : Stock s) : Stock s.choice := by
  rcases s.choice_cases with h | ⟨p, -, -, h⟩ | ⟨c, -, -, -, -, h⟩ | ⟨room, -, -, -, h⟩
  · rwa [h]
  · rw [h, State.resend]
    split
    · exact hs
    · exact hs.same rfl rfl rfl
  · exact hs.firstTransmission h
  · exact hs.alert room h

theorem Stock.recover (hs : Stock s) : Stock s.recover := by
  rcases s.recover_cases with ⟨-, h⟩ | ⟨-, -, h⟩ | ⟨-, -, h⟩ <;> rw [h]
  · exact hs
  · exact Stock.choice (hs.same rfl rfl rfl)
  · exact Stock.choice (hs.same rfl rfl rfl)

theorem Stock.takeAck (next : Byte) (payload : List Byte) (hs : Stock s) : Stock (s.takeAck next payload) := by
  have stale : Stock s.staleAck := hs.same rfl rfl rfl
  unfold State.takeAck
  dsimp only
  split
  · exact stale
  · split
    · exact hs
    · split
      · exact hs
      · split
        · exact hs.fewer (fun p _ => List.Sublist.countP_le List.filter_sublist) rfl rfl
        · exact stale

theorem Stock.expire (hs : Stock s) : Stock s.expire := by
  unfold State.expire
  dsimp only
  split <;> exact hs.same rfl rfl rfl

/-! ### Relays and requests -/

/-- An entry of another class than REPORT and ALERT joins the pool where there is room for it. -/
theorem Stock.addEntry {c : UplinkClass} {p : List Byte} (hs : Stock s) (room : s.occupancy < poolSize)
    (class_ : c = .result ∨ (c = .mgmtResp ∧ s.queuedCount .mgmtResp < responseLimit)) : Stock (s.addEntry c p) := by
  intro b
  have hb := hs b
  refine ⟨hb.credits, by rw [State.addEntry_occupancy]; exact room, ?_, ?_, ?_⟩
  · rw [State.addEntry_queuedCount]
    rcases class_ with rfl | ⟨rfl, few⟩
    · exact hb.responses
    · exact few
  · rcases class_ with rfl | ⟨rfl, -⟩ <;> simpa [State.reportsHeld] using hb.reports
  · rw [State.addEntry_queuedCount, hb.alerts]
    rcases class_ with rfl | ⟨rfl, -⟩ <;> rfl

/-- A command that is accepted reserves the credit it will convert (R95, R118). -/
theorem Stock.accept (hs : Stock s) (room : s.occupancy < poolSize) (c : Command) : Stock (s.accept b c) := by
  have queued : Stock (s.reserve.onBr b fun B => { B with queue := B.queue ++ [c] }) := by
    have others : ∀ d, d ≠ b → (s.reserve.onBr b fun B => { B with queue := B.queue ++ [c] }).br d = s.br d :=
      fun d hd => State.onBr_br_other _ _ hd
    refine Stocked.stock (b := b) ?_
    rw [State.owedBeside_of_others others]
    have hb := hs b
    have owed : BranchState.owed { s.br b with queue := (s.br b).queue ++ [c] } = (s.br b).owed + 1 := by
      show ((s.br b).queue ++ [c]).length + (if (s.br b).inFlight.isSome then 1 else 0) = _
      rw [List.length_append, BranchState.owed]
      exact Nat.add_right_comm ..
    refine ⟨?_, ?_, hb.responses, hb.reports, hb.alerts⟩
    · rw [State.onBr_br_same, State.reserve_br, owed, State.onBr_credits, State.reserve_credits, hb.credits]
      rfl
    · rw [State.occupancy] at room ⊢
      exact room
  exact queued.moves (R := fun _ => True) (work_accept (R := fun _ => True) c).1 ((moves_count _).trans moves_kick)

theorem Stock.takeRelay (node : Nat) (tag : Byte) (payload : List Byte) (hs : Stock s) :
    Stock (s.takeRelay node tag payload) := by
  rcases s.takeRelay_cases node tag payload with h | ⟨room, status, h⟩ | ⟨r, room, -, -, -, -, -, -, h⟩ <;> rw [h]
  · exact hs.same rfl rfl rfl
  · exact hs.addEntry room (.inl rfl)
  · exact hs.accept room _

theorem Stock.respond (tag : Byte) (r : Reply) (hs : Stock s) : Stock (s.respond tag r) := by
  rcases s.respond_cases tag r with ⟨room, few, h⟩ | ⟨-, h⟩ <;> rw [h]
  · exact hs.addEntry room (.inr ⟨rfl, few⟩)
  · exact hs.same rfl rfl rfl

/-- A branch changed but for its queue and its slot. -/
theorem Stock.onBr (hs : Stock s) {f : BranchState → BranchState} (queue : (f (s.br b)).queue = (s.br b).queue)
    (slot : (f (s.br b)).slot = (s.br b).slot) : Stock (s.onBr b f) := by
  refine Stocked.stock (b := b) ?_
  rw [State.owedBeside_of_others (s := s) fun d hd => State.onBr_br_other _ _ hd]
  exact (hs b).same rfl rfl (by rw [State.onBr_br_same]; exact BranchState.owed_same queue slot)

theorem Stock.onStandby (hs : Stock s) (f : Bank → Bank) : Stock (s.onBr b fun B => B.onStandby f) := by
  have queue : ((s.br b).onStandby f).queue = (s.br b).queue := by rw [BranchState.onStandby]; split <;> rfl
  have slot : ((s.br b).onStandby f).slot = (s.br b).slot := by rw [BranchState.onStandby]; split <;> rfl
  exact hs.onBr queue slot

theorem Stock.purgeAll (hs : Stock s) (a : Nat) : Stock (s.purgeAll a) := by
  have purge : ∀ {u : State}, Stock u → ∀ b, Stock (u.purgeQueue a b) := fun hu _ =>
    hu.moves (R := fun _ => True) (branchStep_purgeQueue a) (moves_purgeQueue a)
  exact purge (purge (purge (purge hs .b0) .b1) .b2) .b3

theorem Stock.carried (h : Carried s t) (ok : BranchesOk s) (hs : Stock s) : Stock t := by
  cases h with
  | branch b w d =>
    have moves : Moves b (fun _ => True) True s (s.applyBranch b d) := moves_applyBranch d fun _ state =>
      ((ok b).noSupply (by rcases state with e | e <;> rw [e] <;> rfl)).2
    have settings : ∀ c, c ≠ b → (s.applyBranch b d).br c = s.br c := fun c hc =>
      ((work_applyBranch (R := fun _ => True) d).1.others c hc).trans (State.onBr_br_other _ _ hc)
    refine Stocked.stock (b := b) ?_
    rw [State.owedBeside_of_others settings]
    exact moves.keeps (fun _ _ => Stocked.move) (hs b)
  | updated r hr w d =>
    unfold State.updateRecord
    dsimp only
    split <;> exact hs.same rfl rfl rfl
  | header b => exact hs.onStandby _
  | entry b => exact hs.onStandby _
  | deleted a => exact Stock.purgeAll (s := { s with nodes := removeNode a s.nodes }) (hs.same rfl rfl rfl) a
  | purged a => exact hs.purgeAll a
  | swapAsked b => exact hs.onBr (f := fun B => { B with swapPending := true }) rfl rfl
  | swapped b => exact hs.moves (R := fun _ => True) branchStep_takeSwap moves_takeSwap
  | mode b m => exact hs.moves (R := fun _ => True) (branchStep_requestMode m) (moves_requestMode m)
  | counters g =>
    cases g with
    | branch b => exact hs.onBr (f := fun B => { B with counters := BranchCounters.zero }) rfl rfl
    | device => exact hs.same rfl rfl rfl
  | _ => exact hs.same rfl rfl rfl

/-! ### Resets -/

theorem stock_of_empty (pool : s.pool = []) (credits : s.credits = 0)
    (owed : ∀ b, (s.br b).queue = [] ∧ (s.br b).slot = none) : Stock s := by
  have none : ∀ b, (s.br b).owed = 0 := fun b => by
    rw [BranchState.owed_eq_length (BranchState.inFlight_of_idle (owed b).2), (owed b).1]
    rfl
  refine Stocked.stock (b := .b0) ⟨?_, ?_, ?_, ?_, ?_⟩
  · simp only [State.owedBeside, none, credits]
  · rw [State.occupancy, pool, credits]; exact Nat.zero_le _
  · rw [State.queuedCount, pool]; exact Nat.zero_le _
  · rw [State.reportsHeld, pool]; exact Nat.zero_le _
  · rw [State.queuedCount, pool]; rfl

theorem stock_hardReset (s : State) (cause : RestartCause) (sa : Fin 8) (tr : Fin 4) :
    Stock (s.hardReset cause sa tr) :=
  stock_of_empty rfl rfl fun b => by
    have hbr : (s.hardReset cause sa tr).br b = BranchState.reset (s.br b).supply := Per.get_map ..
    rw [hbr]
    exact ⟨rfl, rfl⟩

theorem Stock.restartSupply (hs : Stock s) (idle : (s.br b).slot = none) : Stock (s.restartSupply b) :=
  hs.moves (R := fun _ => True) (work_restartSupply (R := fun _ => True) b).1
    (moves_ite (fun _ => .refl) fun _ => moves_awaitSupply fun _ => idle)

theorem stock_warmRestart (s : State) : Stock s.warmRestart := by
  have hbr : ∀ b, s.restartedPart.br b = (s.br b).restarted := fun b => Per.get_map ..
  have idle : ∀ b, (s.restartedPart.br b).slot = none := fun b => by rw [hbr]; rfl
  have empty : Stock s.restartedPart := stock_of_empty rfl rfl fun b => ⟨by rw [hbr]; rfl, idle b⟩
  rw [State.warmRestart_eq]
  refine (((empty.restartSupply (idle _)).restartSupply ?_).restartSupply ?_).restartSupply ?_
  · rw [State.restartSupply_br_other (by decide)]
    exact idle _
  · iterate 2 rw [State.restartSupply_br_other (by decide)]
    exact idle _
  · iterate 3 rw [State.restartSupply_br_other (by decide)]
    exact idle _

/-! ### Every command and every tick -/

theorem Stock.row {c : Instr} (ok : BranchesOk s) (hs : Stock s) (row : branchRow c = some b) (h : exec c s = .next t) :
    Stock t := by
  have free : (s.br b).cycle.phase = .waiting ∨ (s.br b).sup.state = .restorePending → (s.br b).slot = none := by
    rintro (phase | state)
    · by_contra busy
      have active : (s.br b).current = .scheduled := by
        by_contra idle
        exact absurd (((ok b).idleCycle (.inl idle)).1.symm.trans phase) (by decide)
      exact absurd (phase.symm.trans (((ok b).running active).1 (Option.isSome_iff_ne_none.2 busy))) (by decide)
    · exact ((ok b).noSupply (by rw [state]; rfl)).2
  obtain ⟨v, u, hv, ⟨step, moves⟩, ht⟩ := worked_exec (R := fun _ => True) (idle := True) (fun _ => free)
    (fun _ _ _ _ _ => trivial) (bytesIn_any s c) row h
  have hu : Stock u := Stock.moves (by
    rcases hv with rfl | ⟨x, rfl⟩
    · exact hs
    · exact hs.onBr (f := fun B => { B with supply := x }) rfl rfl) step moves
  rcases ht with rfl | rfl
  · exact hu
  · exact hu.choice

theorem kept_poolOk : Kept (fun _ _ => True) fun s => BranchesOk s ∧ Stock s where
  reset s cause sa tr _ := ⟨branchesOk_hardReset s cause sa tr, stock_hardReset s cause sa tr⟩
  hunt s rx h := ⟨kept_branchesOk.hunt s rx h.1, h.2.same rfl rfl rfl⟩
  begin s v rx h := ⟨kept_branchesOk.begin s v rx h.1, h.2.same rfl rfl rfl⟩
  append s taken v more e m h := ⟨kept_branchesOk.append s taken v more e m h.1, h.2.same rfl rfl rfl⟩
  choice s h := ⟨kept_branchesOk.choice s h.1, h.2.choice⟩
  recover s h := ⟨kept_branchesOk.recover s h.1, h.2.recover⟩
  ack s next payload trunk h := ⟨kept_branchesOk.ack s next payload trunk h.1, h.2.takeAck next payload⟩
  relay s node tag payload h := ⟨kept_branchesOk.relay s node tag payload h.1, h.2.takeRelay node tag payload⟩
  manage s tag r h := ⟨kept_branchesOk.manage s tag r h.1,
    (keeps_manage (P := fun s => BranchesOk s ∧ Stock s) tag r h (fun _ _ h => ⟨h.1.same rfl, h.2.same rfl rfl rfl⟩)
      (fun _ _ c h => ⟨h.1.carried c, h.2.carried c h.1⟩) fun _ h => ⟨h.1.respond tag _, h.2.respond tag _⟩).2⟩
  restart s h := ⟨kept_branchesOk.restart s h.1, stock_warmRestart s⟩
  free s h := ⟨kept_branchesOk.free s h.1, h.2.same rfl rfl rfl⟩
  expire s timer h := ⟨kept_branchesOk.expire s timer h.1, h.2.expire⟩
  branch s t c b w row e h := ⟨kept_branchesOk.branch s t c b w row e h.1, h.2.row h.1 row e⟩

theorem Stock.tick (hs : Stock s) : Stock s.tick := by
  have owed : ∀ b, (s.tick.br b).owed = (s.br b).owed := fun b => by
    have hbr : s.tick.br b = (s.br b).tick := Per.get_map ..
    rw [hbr]
    exact BranchState.owed_same rfl rfl
  refine Stocked.stock (b := .b0) ?_
  have beside : s.tick.owedBeside .b0 = s.owedBeside .b0 := by simp only [State.owedBeside, owed]
  rw [beside]
  exact (hs .b0).same rfl rfl (owed .b0)

end
end Sys2Proof.Machine

/-! ### The statement -/

namespace Sys2Proof.Invariants
open Sys2Proof.Machine

/-- Settles O56: an accepted command reserves a credit, and leaves with a RESULT that converts one; every other admission
is within its ceiling. -/
theorem poolKept : Obligations.PoolKept := by
  intro s t hs h
  rw [poolOk_iff] at hs ⊢
  rcases step_cases h with ⟨-, rfl⟩ | ⟨c, rest, -, hexec⟩
  · exact ⟨hs.1.tick, hs.2.tick⟩
  · exact kept_poolOk.exec trivial hexec ⟨hs.1.same rfl, hs.2.same rfl rfl rfl⟩

end Sys2Proof.Invariants
end

section
/-! PROOFS. Time and resets: the tick of an empty queue, the rows without their event, and the resets. -/
namespace Sys2Proof.Machine

section
variable {b : Branch} {s t : State}

/-! ### The expiries of a tick -/

theorem reached_countUp {t : Option Nat} {time : Nat} :
    reached (countUp t) time = true ↔ ∃ n, t = some n ∧ time ≤ n + 1 := by
  cases t with
  | none => exact ⟨fun e => (nomatch e), fun ⟨_, e, _⟩ => (nomatch e)⟩
  | some n => simp [countUp, reached]

theorem mem_ite_singleton {p : Bool} {x c : Instr} : c ∈ (if p then [x] else []) ↔ c = x ∧ p = true := by
  cases p <;> simp

theorem mem_branch_expiries {B : BranchState} {c : Instr} : c ∈ B.expiries b ↔
    (c = .cycleTick b ∧ ∃ n, B.cycle.timer = some n ∧ B.active.period ≤ n + 1) ∨
    (c = .qualifyTimerExpiry b ∧ ∃ n, B.sup.qualify = some n ∧ B.sup.qualifyTime ≤ n + 1) ∨
    (c = .restoreTimerExpiry b ∧ ∃ n, B.sup.restore = some n ∧ B.sup.restoreTime ≤ n + 1) := by
  rw [BranchState.expiries, List.mem_append, List.mem_append, mem_ite_singleton, mem_ite_singleton, mem_ite_singleton,
    reached_countUp, reached_countUp, reached_countUp, or_assoc]

theorem State.mem_expiries {c : Instr} : c ∈ s.expiries ↔
    (c = .retransmitTimerExpiry ∧ ∃ n, s.du.timer = some n ∧ s.du.timeout ≤ n + 1) ∨
    ∃ b, c ∈ (s.br b).expiries b := by
  have branches : (∃ b, c ∈ (s.br b).expiries b) ↔ c ∈ (s.br .b0).expiries .b0 ∨ c ∈ (s.br .b1).expiries .b1 ∨
      c ∈ (s.br .b2).expiries .b2 ∨ c ∈ (s.br .b3).expiries .b3 := by
    constructor
    · rintro ⟨b, h⟩
      cases b <;> simp only [h, true_or, or_true]
    · rintro (h | h | h | h) <;> exact ⟨_, h⟩
  rw [branches, State.expiries]
  simp only [List.mem_append, mem_ite_singleton, or_assoc]
  rw [reached_countUp]

/-- Each timer expires once at most. -/
theorem State.expiries_nodup (s : State) : s.expiries.Nodup := by
  have one : ∀ (p : Bool) (x : Instr), (if p then [x] else []).Sublist [x] := fun p x => by
    cases p
    · exact List.nil_sublist _
    · exact .refl _
  have branch : ∀ b, ((s.br b).expiries b).Sublist [.cycleTick b, .qualifyTimerExpiry b, .restoreTimerExpiry b] :=
    fun b => ((one _ _).append (one _ _)).append (one _ _)
  have all : s.expiries.Sublist ([.retransmitTimerExpiry] ++ _ ++ _ ++ _ ++ _) :=
    ((((one _ _).append (branch .b0)).append (branch .b1)).append (branch .b2)).append (branch .b3)
  exact all.nodup (by decide)

/-- A cycle timer that reaches its period returns to 0 (R51). -/
theorem cycleTimer_tick (t : Option Nat) (period : Nat) :
    (if reached (countUp t) period then some 0 else countUp t) = t.map fun n => if period ≤ n + 1 then 0 else n + 1 := by
  cases t with
  | none => rfl
  | some n =>
    show (if decide (period ≤ n + 1) then some 0 else some (n + 1)) = some (if period ≤ n + 1 then 0 else n + 1)
    by_cases h : period ≤ n + 1 <;> simp [h]

/-! ### What listens -/

theorem BranchState.listening_none {B : BranchState}
    (h : (∀ rate w, B.slot ≠ some { rate := rate, phase := .listening, work := .poll w }) ∨
      B.line = .quiet ∨ ∃ f, B.line = .sending f) : B.listening = none := by
  unfold BranchState.listening
  split
  case h_1 rate w slot line =>
    rcases h with h | h | ⟨f, h⟩
    · exact absurd slot (h rate w)
    · exact absurd (h.symm.trans line) (fun e => nomatch e)
    · exact absurd (h.symm.trans line) (fun e => nomatch e)
  case h_2 rate w taken slot line =>
    rcases h with h | h | ⟨f, h⟩
    · exact absurd slot (h rate w)
    · exact absurd (h.symm.trans line) (fun e => nomatch e)
    · exact absurd (h.symm.trans line) (fun e => nomatch e)
  case h_3 => rfl

/-- What is heard on a QUIET line is nothing to a slot that does not settle (R15, R72). -/
theorem State.heardQuiet_idle (h : ∀ rate w, (s.br b).slot ≠ some { rate := rate, phase := .settling, work := .poll w })
    (start : QuietFrom) : s.heardQuiet b start = s := by
  rcases s.heardQuiet_eq b start with ⟨rate, w, slot, -⟩ | ⟨-, same⟩
  · exact absurd slot (h rate w)
  · exact same

/-! ### Resets -/

/-- The Event Unit right after power-on is what a reset makes of itself (R183). -/
theorem EventUnit.reset_atReset_power : EventUnit.reset.atReset .power = EventUnit.reset := by decide

theorem EventUnit.reset_atReset_pin : EventUnit.reset.atReset .pin = { EventUnit.reset with cause := .pin } := by decide

/-- The part right after power-on is what POWER_ON makes of it (R183). -/
theorem State.reset_eq_hardReset : State.reset = State.reset.hardReset .power 0 0 := by
  rw [State.hardReset, EventUnit.reset_atReset_power]
  rfl

/-- The choice of a trunk that is DOWN is nothing (R138); a warm restart leaves it so (R156). -/
theorem State.warmRestart_choice (s : State) : s.warmRestart.choice = s.warmRestart := by
  refine State.choice_idle (.inr ?_)
  have du : s.warmRestart.du = s.du.restarted :=
    keeps_warmRestart (R := fun _ => True) (P := fun t => t.du = s.du.restarted) (fun _ _ _ h k => h.1.du.trans k) rfl
  rw [du]
  rfl

end
end Sys2Proof.Machine

/-! ### The statements -/

namespace Sys2Proof.TimeAndResets
open Sys2Proof.Machine

/-- Settles O1: by the definition of a step. -/
theorem stepRunsFront : Obligations.StepRunsFront := by
  intro s c rest h
  rw [step, h]

/-- Settles O2: the order is some order of the tick's expiries, each of which arises once. -/
theorem emptyQueueTick : Obligations.EmptyQueueTick := by
  intro s hpending
  have perm := ordered_perm (Config.tickRank s.ticks) 0 s.expiries
  refine ⟨(ordered (Config.tickRank s.ticks) 0 s.expiries).map Prod.snd, ?_, perm.nodup_iff.2 s.expiries_nodup,
    fun c => ?_⟩
  · have tick : BranchState.tick = fun B => { B with
        cycle := { B.cycle with timer := B.cycle.timer.map fun n => if B.active.period ≤ n + 1 then 0 else n + 1 }
        sup := { B.sup with qualify := B.sup.qualify.map (· + 1), restore := B.sup.restore.map (· + 1) } } := by
      funext B
      rw [BranchState.tick, cycleTimer_tick]
      rfl
    simp only [step, hpending, State.tick, tick, List.nil_append]
    rfl
  · rw [perm.mem_iff, State.mem_expiries]
    refine or_congr Iff.rfl ⟨?_, ?_⟩
    · rintro ⟨b, h⟩
      rcases mem_branch_expiries.1 h with ⟨hc, n, h⟩ | ⟨hc, n, h⟩ | ⟨hc, n, h⟩
      · exact .inl ⟨b, n, hc, h⟩
      · exact .inr (.inl ⟨b, n, hc, h⟩)
      · exact .inr (.inr ⟨b, n, hc, h⟩)
    · rintro (⟨b, n, hc, h⟩ | ⟨b, n, hc, h⟩ | ⟨b, n, hc, h⟩)
      · exact ⟨b, mem_branch_expiries.2 (.inl ⟨hc, n, h⟩)⟩
      · exact ⟨b, mem_branch_expiries.2 (.inr (.inl ⟨hc, n, h⟩))⟩
      · exact ⟨b, mem_branch_expiries.2 (.inr (.inr ⟨hc, n, h⟩))⟩

/-- Settles O4: each meaning looks for its event in the state, and for none of these finds it. -/
theorem rowsWithoutTheirEvent : Obligations.RowsWithoutTheirEvent := by
  intro s b
  refine ⟨fun h => ?_, fun h => ?_, fun h => ?_, fun h => ?_, fun h => ?_, fun h => ?_, fun h => ?_, fun h => ?_,
    fun h => ?_, fun h => ?_, fun h => ?_, fun h => ?_⟩
  · simp only [exec, execTrunkGap, h]
  · simp only [exec, execTrunkFrameEnd, h]
  · simp only [exec, execRetransmitTimerExpiry, h]
  · simp only [exec, execCycleTick, h]
  · simp only [exec, execQualifyTimerExpiry]
    split
    · rename_i state timer
      rcases h with h | h
      · exact absurd state h
      · exact absurd (h.symm.trans timer) (fun e => nomatch e)
    · rfl
  · simp only [exec, execRestoreTimerExpiry]
    split
    · rename_i state timer
      rcases h with h | h
      · exact absurd state h
      · exact absurd (h.symm.trans timer) (fun e => nomatch e)
    · rfl
  · simp only [exec, execAttemptFrameSent]
  · simp only [exec, execSettlingEnd]
  · simp only [exec, execSyncSlotEnd]
  · simp only [exec, execGapSlotEnd]
  · simp only [exec, execNothingHeard]
    split
    · rename_i slot line
      rcases h with h | h
      · exact absurd slot (h _ _)
      · exact absurd line h
    · rfl
  · have none := BranchState.listening_none h
    refine ⟨fun f => ?_, fun a => ?_, fun a cause hcause => ?_⟩
    · simp only [exec, execBranchReplyComplete, State.heardFrame, none]
    · simp only [exec, execBranchGap, State.heardGap, none]
    · simp only [exec, execBranchFragment, State.heardFragment, none]
      split
      · rename_i line
        rcases hcause with e | e | e
        · exact absurd rfl e
        · exact absurd line e
        · rw [State.heardQuiet_idle e]
      · rfl

/-- Settles O5: read off the reset state. -/
theorem resetState : Obligations.ResetState :=
  ⟨rfl, rfl, rfl, rfl, rfl, rfl, rfl, rfl, rfl, rfl, fun b => by cases b <;> exact ⟨rfl, rfl⟩, rfl, rfl,
    fun b => ⟨0, by cases b <;> rfl⟩⟩

/-- Settles O6: power-on is a reset, and a reset leaves everything as it should be. -/
theorem invariantsAtReset : Obligations.InvariantsAtReset := by
  rw [Obligations.InvariantsAtReset, State.reset_eq_hardReset]
  refine ⟨queuesOk_hardReset .power 0 0, poolOk_iff.2 ⟨branchesOk_hardReset _ .power 0 0, stock_hardReset _ .power 0 0⟩,
    DeliveryOk.of_empty (d := Delivery.reset) rfl rfl (by decide) (by decide) (by decide), settingsOk_hardReset .power 0 0,
    trivial, ?_⟩
  rw [← State.reset_eq_hardReset]
  refine ⟨fun _ h => (nomatch h), fun _ h => (nomatch h), fun _ h => (nomatch h), fun b => ?_, fun _ h => (nomatch h)⟩
  have rest : State.reset.br b = BranchState.reset 0 := by cases b <;> rfl
  rw [rest]
  exact BranchState.Fits.of_rest rfl trivial fun _ h => (nomatch h)

/-- Settles O7: both are a hard reset, and the cause is all that differs. -/
theorem powerAndPinReset : Obligations.PowerAndPinReset := by
  refine ⟨fun s sa tr => ⟨s.hardReset .power sa tr, rfl, ?_, ?_⟩, rfl⟩
  · show Host.Outcome.next (s.hardReset .pin sa tr) = _
    rw [State.hardReset, State.hardReset, EventUnit.reset_atReset_power, EventUnit.reset_atReset_pin]
  · rw [State.hardReset, EventUnit.reset_atReset_power]
    rfl

/-- Settles O8: a warm restart takes every block's values from the part that the good frame arrived at, and nothing of
what it keeps did the arrival change. -/
theorem warmRestart : Obligations.WarmRestart := by
  intro s tag
  have step := deliveryStep_arrived s
  have kept : ∀ b, s.arrived.restartedPart.br b = (s.arrived.br b).restarted := fun b => Per.get_map ..
  have arrivedBr : ∀ b, s.arrived.br b = s.br b := fun b => by rw [State.br, step.branches]; rfl
  have enables : ∀ g, (s.arrived.eu.group g).enables = (s.eu.group g).enables := step.enables
  refine ⟨s.arrived.restartedPart, ?_, step.strap, step.trunkRate, rfl, rfl, rfl, rfl, rfl, rfl, rfl, rfl, step.pending,
    step.ticks, ?_, ?_, fun b => ?_, fun b => ?_, ?_, rfl⟩
  · show Host.Outcome.next s.arrived.warmRestart.choice = _
    rw [State.warmRestart_choice]
    rfl
  · show s.arrived.nodes.map NodeRecord.restarted = _
    rw [step.nodes]
    rfl
  · show s.arrived.du.restarted = _
    rw [Delivery.restarted, step.window, step.timeout, step.failLimit]
    rfl
  · rw [kept, arrivedBr]
    rfl
  · rw [← show (s.arrived.eu.groups.get b).enables = (s.eu.groups.get b).enables from enables (.branch b)]
    cases b <;> exact ⟨rfl, rfl⟩
  · rw [← show s.arrived.eu.device.enables = s.eu.device.enables from enables .device]
    show FlagGroup.raise { flags := 0, enables := s.arrived.eu.device.enables, pending := false } 0x01 = _
    simp [FlagGroup.raise]

end Sys2Proof.TimeAndResets
end

section
/-! PROOFS. Characters and how a receiver finds them on its line (R1, R2): bit by bit, half a bit time before and after the
sample that is taken. -/
namespace Sys2Proof.Machine

/-! ### Eleven bits -/

theorem bitsValue_testBit (l : List Bool) (i : Nat) : (bitsValue l).testBit i = l.getD i false := by
  induction l generalizing i with
  | nil => exact Nat.zero_testBit i
  | cons v l ih =>
    have bit : bitsValue (v :: l) = Nat.bit v (bitsValue l) := by
      rw [bitsValue, Nat.bit_val, Nat.add_comm]
    rw [bit]
    cases i with
    | zero => exact Nat.testBit_bit_zero ..
    | succ i => rw [Nat.testBit_bit_succ, ih]; rfl

theorem characterBits_eq (marker : Bool) (v : Byte) : characterBits marker v =
    [false, v.getLsbD 0, v.getLsbD 1, v.getLsbD 2, v.getLsbD 3, v.getLsbD 4, v.getLsbD 5, v.getLsbD 6, v.getLsbD 7,
      marker, true] := rfl

/-- The value of the eight bits of a byte is the byte. -/
theorem byte_bitsValue (v : Byte) :
    byte (bitsValue [v.getLsbD 0, v.getLsbD 1, v.getLsbD 2, v.getLsbD 3, v.getLsbD 4, v.getLsbD 5, v.getLsbD 6,
      v.getLsbD 7]) = v := by
  refine BitVec.eq_of_getLsbD_eq fun i hi => ?_
  rw [byte, BitVec.getLsbD_ofNat, bitsValue_testBit]
  interval_cases i <;> rfl

theorem sampleCharacter_characterBits (marker : Bool) (v : Byte) :
    sampleCharacter (characterBits marker v) = some (.character marker v) := by
  rw [characterBits_eq, sampleCharacter, byte_bitsValue]
  rfl

/-! ### One bit on the line -/

/-- The stop bit up to its middle: the eleven levels are judged (R2). -/
theorem Sampler.run_stop (half : Nat) (taken : List Bool) (v : Bool) (later : List Bool) :
    Sampler.run half (.sampling half taken) (List.replicate half v ++ v :: later) =
      ((Sampler.run half (Sampler.judge half (taken ++ [v])).1 later).1,
        (Sampler.judge half (taken ++ [v])).2.toList ++
          (Sampler.run half (Sampler.judge half (taken ++ [v])).1 later).2) := by
  have wait := Sampler.run_sampling_wait half taken (List.replicate half v) 0
  rw [List.length_replicate, Nat.add_zero] at wait
  rw [Sampler.run_append, wait, Sampler.run_cons]
  rfl

/-- The rest of a good stop bit, at the end of which its character is reported (R2). -/
theorem Sampler.run_finish (half : Nat) (event : RxEvent) :
    (Sampler.run half (Sampler.finish (half - 1) event).1 (List.replicate (half - 1) true)).1 = .looking ∧
      (Sampler.finish (half - 1) event).2.toList ++
        (Sampler.run half (Sampler.finish (half - 1) event).1 (List.replicate (half - 1) true)).2 = [event] := by
  obtain ⟨n, hn⟩ : ∃ n, half - 1 = n := ⟨_, rfl⟩
  rw [hn]
  cases n with
  | zero => exact ⟨rfl, rfl⟩
  | succ n =>
    have ending := (Sampler.run_ending half event (List.replicate n true)).1
    rw [List.length_replicate, ← List.replicate_succ'] at ending
    rw [Sampler.finish, ending]
    exact ⟨rfl, rfl⟩

/-- A run of equal bits on the line (R1). -/
theorem lineLevels_replicate (half k : Nat) (v : Bool) :
    lineLevels half (List.replicate k v) = List.replicate (k * (2 * half)) v := by
  induction k with
  | zero => rw [Nat.zero_mul]; rfl
  | succ k ih =>
    rw [List.replicate_succ, lineLevels, List.flatMap_cons, ← lineLevels, ih, ← List.replicate_add]
    congr 1
    ring

section
variable {half : Nat} (pos : 1 ≤ half)
include pos

/-- A bit in the middle of a character is sampled at its middle (R2). -/
theorem Sampler.run_bit {taken : List Bool} (begun : taken ≠ []) (few : taken.length + 1 < 11) (v : Bool) :
    Sampler.run half (.sampling half taken) (List.replicate (2 * half) v) = (.sampling half (taken ++ [v]), []) := by
  have judged : Sampler.judge half (taken ++ [v]) = (.sampling (2 * half - 1) (taken ++ [v]), none) := by
    rw [Sampler.judge, if_neg, if_pos]
    · rwa [List.length_append, List.length_singleton]
    · intro e
      have := congrArg List.length e
      rw [List.length_append, List.length_singleton, List.length_singleton, Nat.add_eq_right,
        List.length_eq_zero_iff] at this
      exact begun this
  have split : List.replicate (2 * half) v = List.replicate half v ++ (v :: List.replicate (half - 1) v) := by
    rw [← List.replicate_succ, ← List.replicate_add]
    congr 1
    omega
  have wait := Sampler.run_sampling_wait half taken (List.replicate half v) 0
  have rest := Sampler.run_sampling_wait half (taken ++ [v]) (List.replicate (half - 1) v) half
  rw [List.length_replicate, Nat.add_zero] at wait
  rw [List.length_replicate, show half - 1 + half = 2 * half - 1 by omega] at rest
  rw [split, Sampler.run_append, wait, Sampler.run_cons, Sampler.next, judged, rest]
  rfl

/-- The start bit (R1, R2). -/
theorem Sampler.run_start :
    Sampler.run half .looking (List.replicate (2 * half) false) = (.sampling half [false], []) := by
  have split : List.replicate (2 * half) false =
      false :: (List.replicate (half - 1) false ++ (false :: List.replicate (half - 1) false)) := by
    rw [← List.replicate_succ, ← List.replicate_add, ← List.replicate_succ]
    congr 1
    omega
  have wait := Sampler.run_sampling_wait half [] (List.replicate (half - 1) false) 0
  have rest := Sampler.run_sampling_wait half [false] (List.replicate (half - 1) false) half
  rw [List.length_replicate, Nat.add_zero] at wait
  rw [List.length_replicate, show half - 1 + half = 2 * half - 1 by omega] at rest
  rw [split, Sampler.run_cons]
  simp only [Sampler.next, Bool.false_eq_true, if_false, Option.toList_none, List.nil_append]
  rw [Sampler.run_append, wait, Sampler.run_cons, Sampler.next]
  simp only [Sampler.judge]
  rw [List.nil_append, if_neg (by decide), if_pos (by decide), rest]
  rfl

/-- Bits after the start bit, before the stop bit (R1). -/
theorem Sampler.run_bits (bits : List Bool) {taken : List Bool} (begun : taken ≠ [])
    (few : taken.length + bits.length < 11) :
    Sampler.run half (.sampling half taken) (lineLevels half bits) = (.sampling half (taken ++ bits), []) := by
  induction bits generalizing taken with
  | nil => rw [List.append_nil]; rfl
  | cons v bits ih =>
    rw [List.length_cons] at few
    have rest := ih (taken := taken ++ [v]) (by simp) (by rw [List.length_append, List.length_singleton]; omega)
    rw [List.append_assoc, List.singleton_append] at rest
    rw [lineLevels, List.flatMap_cons, Sampler.run_append, Sampler.run_bit pos begun (by omega)]
    exact Prod.ext_iff.2 ⟨congrArg Prod.fst rest, congrArg Prod.snd rest⟩

/-- The eleven bits of a character that is sent are the character received (R1, R2). -/
theorem Sampler.run_character (marker : Bool) (v : Byte) :
    Sampler.run half .looking (lineLevels half (characterBits marker v)) = (.looking, [.character marker v]) := by
  obtain ⟨bits, hbits, hlen⟩ : ∃ bits, characterBits marker v = false :: (bits ++ [true]) ∧ bits.length = 9 :=
    ⟨[_, _, _, _, _, _, _, _, _], characterBits_eq marker v, rfl⟩
  have stop : List.replicate (2 * half) true = List.replicate half true ++ true :: List.replicate (half - 1) true := by
    rw [← List.replicate_succ, ← List.replicate_add]
    congr 1
    omega
  have levels : lineLevels half (false :: (bits ++ [true])) =
      List.replicate (2 * half) false ++ (lineLevels half bits ++ List.replicate (2 * half) true) := by
    simp [lineLevels]
  have judged : Sampler.judge half (false :: bits ++ [true]) = Sampler.finish (half - 1) (.character marker v) := by
    have sample := sampleCharacter_characterBits marker v
    rw [hbits] at sample
    rw [Sampler.judge, if_neg, if_neg, List.cons_append, sample]
    · simp [hlen]
    · intro e
      simpa [hlen] using congrArg List.length e
  have finish := Sampler.run_finish half (.character marker v)
  rw [hbits, levels, Sampler.run_append, Sampler.run_start pos, Sampler.run_append,
    Sampler.run_bits pos bits (by simp) (by simp [hlen]), stop, List.singleton_append,
    Sampler.run_stop, judged]
  exact Prod.ext_iff.2 ⟨finish.1, finish.2⟩

/-- Ten levels and a stop bit at 0 on the line: a framing error in the middle of the stop bit (R2). -/
theorem Sampler.run_badStop {bits : List Bool} (nine : bits.length = 9)
    (sample : sampleCharacter (false :: bits ++ [false]) = some .framingError) (n : Nat) :
    Sampler.run half .looking (lineLevels half (false :: bits) ++ List.replicate (half + 1 + n) false) =
      (.heldLow, [.framingError]) := by
  have levels : lineLevels half (false :: bits) = List.replicate (2 * half) false ++ lineLevels half bits := rfl
  have stop : List.replicate (half + 1 + n) false = List.replicate half false ++ false :: List.replicate n false := by
    rw [← List.replicate_succ, ← List.replicate_add]
    congr 1
    omega
  have judged : Sampler.judge half (false :: bits ++ [false]) = (.heldLow, some .framingError) := by
    rw [Sampler.judge, if_neg, if_neg, sample]
    · simp [nine]
    · intro e
      simpa [nine] using congrArg List.length e
  rw [levels, List.append_assoc, Sampler.run_append, Sampler.run_start pos, Sampler.run_append,
    Sampler.run_bits pos bits (by simp) (by simp [nine]), stop, List.singleton_append,
    Sampler.run_stop, judged, Sampler.run_heldLow_low]
  rfl

/-- A line held at 0 for up to the middle of the stop bit is the beginning of a character (R2). -/
theorem Sampler.run_low_short {n : Nat} (short : n ≤ 21 * half) :
    (Sampler.run half .looking (List.replicate n false)).2 = [] := by
  have levels : List.replicate (21 * half) false =
      List.replicate (2 * half) false ++ (lineLevels half (List.replicate 9 false) ++ List.replicate half false) := by
    rw [lineLevels_replicate, ← List.replicate_add, ← List.replicate_add]
    congr 1
    omega
  have wait := Sampler.run_sampling_wait half (List.replicate 10 false) (List.replicate half false) 0
  rw [List.length_replicate, Nat.add_zero] at wait
  have long : (Sampler.run half .looking (List.replicate (21 * half) false)).2 = [] := by
    rw [levels, Sampler.run_append, Sampler.run_start pos, Sampler.run_append,
      Sampler.run_bits pos _ (by simp) (by simp), List.singleton_append, ← List.replicate_succ, wait]
    rfl
  obtain ⟨m, hm⟩ := Nat.exists_eq_add_of_le short
  rw [hm, List.replicate_add, Sampler.run_append] at long
  exact (List.append_eq_nil_iff.1 long).1

/-- A fall that is back at 1 by the middle of its bit is a false start (R2). -/
theorem Sampler.run_falseStart {low high : Nat} (fell : 1 ≤ low) (back : low ≤ half) (middle : half < low + high) :
    Sampler.run half .looking (List.replicate low false ++ List.replicate high true) = (.looking, []) := by
  obtain ⟨rest, hrest⟩ := Nat.exists_eq_add_of_lt middle
  have split : List.replicate low false ++ List.replicate high true =
      false :: ((List.replicate (low - 1) false ++ List.replicate (half - low) true) ++
        true :: List.replicate rest true) := by
    have lows : List.replicate low false = false :: List.replicate (low - 1) false := by
      rw [← List.replicate_succ]
      congr 1
      omega
    have highs : List.replicate high true = List.replicate (half - low) true ++ true :: List.replicate rest true := by
      rw [← List.replicate_succ, ← List.replicate_add]
      congr 1
      omega
    rw [lows, highs, List.append_assoc]
    rfl
  have wait := Sampler.run_sampling_wait half [] (List.replicate (low - 1) false ++ List.replicate (half - low) true) 0
  rw [List.length_append, List.length_replicate, List.length_replicate, Nat.add_zero,
    show low - 1 + (half - low) = half - 1 by omega] at wait
  rw [split, Sampler.run_cons]
  simp only [Sampler.next, Bool.false_eq_true, if_false, Option.toList_none, List.nil_append]
  rw [Sampler.run_append, wait, Sampler.run_cons, Sampler.next]
  simp only [Sampler.judge]
  rw [List.nil_append, if_pos rfl, Sampler.run_looking_high]
  rfl

end

end Sys2Proof.Machine

/-! ### The statements -/

namespace Sys2Proof.Characters
open Sys2Proof.Machine

/-- Settles O9: the bits are those of R1, and eight bits are their own value. -/
theorem characterBits : Obligations.CharacterBits :=
  ⟨characterBits_eq, sampleCharacter_characterBits, fun _ _ _ _ _ _ _ _ _ => rfl, fun _ _ _ _ _ _ _ _ _ _ => rfl⟩

/-- Settles O60: one bit after another, each sampled in its middle. -/
theorem lineReception : Obligations.LineReception := by
  refine ⟨fun half pos => ⟨Sampler.run_looking_high half, fun low high => Sampler.run_falseStart pos, fun sent => ?_,
    fun v0 v1 v2 v3 v4 v5 v6 v7 marker => ?_, fun n => ⟨Sampler.run_low_short pos, fun long => ?_⟩,
    Sampler.run_heldLow_low half, fun n rest => ?_⟩, fun _ _ _ _ _ _ => ⟨rfl, rfl, rfl, rfl, rfl, rfl⟩⟩
  · induction sent with
    | nil => rfl
    | cons c sent ih =>
      rw [List.flatMap_cons, Sampler.run_append, Sampler.run_character pos, ih]
      rfl
  · have levels : lineLevels half [false, v0, v1, v2, v3, v4, v5, v6, v7, marker, false] =
        lineLevels half (false :: [v0, v1, v2, v3, v4, v5, v6, v7, marker]) ++
          List.replicate (half + 1 + (half - 1)) false := by
      rw [show half + 1 + (half - 1) = 2 * half by omega]
      simp [lineLevels]
    rw [levels]
    exact Sampler.run_badStop pos rfl rfl _
  · obtain ⟨rest, hrest⟩ := Nat.exists_eq_add_of_lt long
    have levels : List.replicate n false =
        lineLevels half (false :: List.replicate 9 false) ++ List.replicate (half + 1 + rest) false := by
      rw [← List.replicate_succ, lineLevels_replicate, ← List.replicate_add]
      congr 1
      omega
    rw [levels]
    exact Sampler.run_badStop pos rfl rfl _
  · rw [Sampler.run_append, Sampler.run_heldLow_low, Sampler.run_cons]
    rfl

end Sys2Proof.Characters
end

section
/-! PROOFS. The trunk: what its receiver takes of a frame, how a complete frame is judged, and the rows as their frames
(R8, R10 to R13). -/
namespace Sys2Proof.Laws.TrunkBytes

/-- A well-formed row that stands for a trunk frame stands for one that fits the trunk (R8). -/
theorem statement : ∀ i, Statement i
  | .powerOn sa tr => powerOn sa tr
  | .pinReset sa tr => pinReset sa tr
  | .trunkFragment event => trunkFragment event
  | .trunkGap => trunkGap
  | .trunkFrameDiscard frame => trunkFrameDiscard frame
  | .ack next payload => ack next payload
  | .relay address tag payload => relay address tag payload
  | .mgmtBadRequest tag payload => mgmtBadRequest tag payload
  | .readDevice tag key item selector => readDevice tag key item selector
  | .readBranch tag key item selector => readBranch tag key item selector
  | .readNode tag key item selector => readNode tag key item selector
  | .readSched tag key item selector => readSched tag key item selector
  | .readQueue tag key item selector => readQueue tag key item selector
  | .readFlags tag key item selector => readFlags tag key item selector
  | .readCounters tag key item selector => readCounters tag key item selector
  | .readPool tag key item selector => readPool tag key item selector
  | .writeDevice tag key item fields => writeDevice tag key item fields
  | .writeBranch tag key item fields => writeBranch tag key item fields
  | .writeNode tag key item fields => writeNode tag key item fields
  | .writeSchedEntry tag key item fields => writeSchedEntry tag key item fields
  | .writeSchedHeader tag key fields => writeSchedHeader tag key fields
  | .writeReadOnlyTable tag table key item fields => writeReadOnlyTable tag table key item fields
  | .deleteNode tag address => deleteNode tag address
  | .resetHealth tag address => resetHealth tag address
  | .purge tag address => purge tag address
  | .swap tag branch => swap tag branch
  | .setMode tag branch mode => setMode tag branch mode
  | .clearFlags tag group set => clearFlags tag group set
  | .clearCounters tag group => clearCounters tag group
  | .restart tag => restart tag
  | .trunkFrameEnd => trunkFrameEnd
  | .retransmitTimerExpiry => retransmitTimerExpiry
  | .cycleTick b => cycleTick b
  | .commandExpiry b => commandExpiry b
  | .attemptFrameSent b => attemptFrameSent b
  | .nothingHeard b => nothingHeard b
  | .branchReplyComplete b frame => branchReplyComplete b frame
  | .branchFragment b address cause => branchFragment b address cause
  | .branchGap b address => branchGap b address
  | .settlingEnd b => settlingEnd b
  | .syncSlotEnd b => syncSlotEnd b
  | .gapSlotEnd b => gapSlotEnd b
  | .supplyRise b above => supplyRise b above
  | .supplyFall b above => supplyFall b above
  | .qualifyTimerExpiry b => qualifyTimerExpiry b
  | .restoreTimerExpiry b => restoreTimerExpiry b
  | .trunkCharacter marker value => trunkCharacter marker value
  | .branchCharacter b marker value => branchCharacter b marker value
  | .mgmtBadTable tag write table key item rest => mgmtBadTable tag write table key item rest

end Sys2Proof.Laws.TrunkBytes

namespace Sys2Proof.Machine

section
variable {limit : Nat} {taken : List Byte} {v : Byte} {f : LineFrame} {s : State}

/-! ### One more character of a frame -/

/-- A row of values is a frame only where there are 6 + LEN of them (R8). -/
theorem LineFrame.length_of_ofValues {a k t len : Byte} {rest : List Byte}
    (h : LineFrame.ofValues (a :: k :: t :: len :: rest) = some f) : rest.length = len.toNat + 2 := by
  simp only [LineFrame.ofValues] at h
  split at h
  · rename_i x y hdrop
    have hlen := congrArg List.length hdrop
    rw [List.length_drop] at hlen
    simp only [List.length_cons, List.length_nil] at hlen
    omega
  · cases h

/-- The beginning of a frame is no frame (R10, R16). -/
theorem ofValues_of_partialFrame (h : partialFrame limit taken) : LineFrame.ofValues taken = none := by
  rcases taken with _ | ⟨a, _ | ⟨k, _ | ⟨t, _ | ⟨len, rest⟩⟩⟩⟩
  · rfl
  · rfl
  · rfl
  · rfl
  · obtain ⟨-, -, hshort⟩ := h
    cases hframe : LineFrame.ofValues (a :: k :: t :: len :: rest) with
    | none => rfl
    | some f =>
      have := LineFrame.length_of_ofValues hframe
      simp only [List.length_cons] at hshort
      omega

/-- A character that leaves the beginning of a frame is appended (R10, R16). -/
theorem takeData_more (h : partialFrame limit (taken ++ [v])) : takeData limit taken v = .more (taken ++ [v]) := by
  rw [takeData, if_neg, ofValues_of_partialFrame h]
  rintro ⟨three, exceeds⟩
  obtain ⟨a, k, t, rfl⟩ := List.length_eq_three.1 three
  exact absurd h.2.1 (Nat.not_le.2 exceeds)

/-- The last character of a frame completes it (R10, R16). -/
theorem takeData_complete (short : f.payload.length < 256) (h : taken ++ [v] = f.values) :
    takeData limit taken v = .complete f := by
  have hlen := congrArg List.length h
  rw [List.length_append, List.length_singleton, LineFrame.values_length] at hlen
  rw [takeData, if_neg (by omega), h, LineFrame.ofValues_values short]

theorem takeData_overLength (three : taken.length = 3) (exceeds : limit < v.toNat) :
    takeData limit taken v = .overLength := if_pos ⟨three, exceeds⟩

/-- What comes before the last character of a frame is its beginning (R8). -/
theorem partialFrame_of_values {rest : List Byte} (fits : f.payload.length ≤ limit) (short : f.payload.length < 256)
    (begun : taken ≠ []) (more : rest ≠ []) (h : f.values = taken ++ rest) : partialFrame limit taken := by
  have hlen := congrArg List.length h
  have pos := List.length_pos_iff.2 more
  rw [LineFrame.values_length, List.length_append] at hlen
  refine ⟨List.length_pos_iff.2 begun, ?_⟩
  rcases taken with _ | ⟨a, _ | ⟨k, _ | ⟨t, _ | ⟨len, taken⟩⟩⟩⟩
  · trivial
  · trivial
  · trivial
  · trivial
  · have e : byte f.payload.length = len := by
      have := congrArg (fun l => l[3]?) h
      simpa [LineFrame.values, LineFrame.body] using this
    have hnat : len.toNat = f.payload.length := by
      rw [← e, byte, BitVec.toNat_ofNat, Nat.mod_eq_of_lt (by omega)]
    exact ⟨by omega, by omega⟩

/-! ### The receiver -/

section
variable (hs : s.receiver = .receiving taken)
include hs

theorem State.receive_more {more : List Byte} (h : takeData trunkLenLimit taken v = .more more) :
    s.receive (.character false v) = { s with receiver := .receiving more } := by
  simp only [State.receive, hs, h]

theorem State.receive_complete (h : takeData trunkLenLimit taken v = .complete f) :
    s.receive (.character false v) = s.takeFrame f := by
  simp only [State.receive, hs, h]

theorem State.receive_overLength (h : takeData trunkLenLimit taken v = .overLength) :
    s.receive (.character false v) = s.abandonFrame .hunting := by
  simp only [State.receive, hs, h]

end

/-- The rest of a frame's characters, one after another, complete the frame (R10). -/
theorem State.receiveAll_rest (fits : f.payload.length ≤ trunkLenLimit) (rest : List Byte) (begun : taken ≠ [])
    (more : rest ≠ []) (h : f.values = taken ++ rest) (hs : s.receiver = .receiving taken) :
    s.receiveAll (rest.map fun v => (false, v)) = s.takeFrame f := by
  have short : f.payload.length < 256 := Nat.lt_of_le_of_lt fits (by decide)
  induction rest generalizing taken s with
  | nil => exact absurd rfl more
  | cons v rest ih =>
    rw [List.map_cons, State.receiveAll, List.foldl_cons]
    rcases rest with _ | ⟨w, rest⟩
    · rw [State.receive_complete hs (takeData_complete short h.symm)]
      rfl
    · have h : f.values = (taken ++ [v]) ++ w :: rest := by rw [h, List.append_assoc]; rfl
      have going : partialFrame trunkLenLimit (taken ++ [v]) :=
        partialFrame_of_values fits short (by simp) (by simp) h
      rw [State.receive_more hs (takeData_more going)]
      exact ih (taken := taken ++ [v]) (s := { s with receiver := .receiving (taken ++ [v]) }) (by simp) (by simp) h rfl

/-- The characters of a frame, taken by a receiver that hunts, come to the frame (R3, R8, R10). -/
theorem State.receiveAll_characters (fits : f.payload.length ≤ trunkLenLimit) (hs : s.receiver = .hunting) :
    s.receiveAll f.characters = s.takeFrame f := by
  have first : s.receive (.character true f.address) = { s with receiver := .receiving [f.address] } := by
    simp only [State.receive, hs]
  have drop : f.values = [f.address] ++ f.values.drop 1 := rfl
  rw [LineFrame.characters_eq, State.receiveAll, List.foldl_cons, first]
  exact State.receiveAll_rest (s := { s with receiver := .receiving [f.address] }) fits _ (by simp) (by
    intro e
    have := congrArg List.length e
    rw [List.length_drop, LineFrame.values_length, List.length_nil] at this
    omega) drop rfl

/-! ### A complete frame -/

theorem State.station_range (s : State) : 240 ≤ s.station.toNat ∧ s.station.toNat ≤ 247 :=
  Laws.TrunkBytes.station_range s.strap

section
variable (good : f.checkAgrees = true)
include good

theorem State.takeFrame_badAddress (h : (f.address = 0 ∨ 248 ≤ f.address.toNat) ∨
    (f.address = s.station ∧ f.kind ≠ kindMgmtReq ∧ f.kind ≠ kindAck) ∨
    (1 ≤ f.address.toNat ∧ f.address.toNat ≤ 239 ∧ f.kind ≠ kindRelay)) :
    s.takeFrame f =
      { s with receiver := .hunting, rx := { s.rx with badAddresses := bump s.rx.badAddresses } } := by
  have range := s.station_range
  rw [State.takeFrame]
  rcases h with h | ⟨address, mgmt, ack⟩ | ⟨low, high, relay⟩
  · simp only [good, h, if_true, Bool.not_true, Bool.false_eq_true, if_false]
  · rw [← address] at range
    have valid : ¬(f.address = 0 ∨ 248 ≤ f.address.toNat) := by
      rintro (e | e)
      · rw [e] at range; exact absurd range.1 (by decide)
      · omega
    have here : ¬ f.address ≠ State.station { s with receiver := .hunting } := fun e => e address
    simp only [good, valid, range.1, here, mgmt, ack, if_true, if_false, Bool.not_true, Bool.false_eq_true]
  · have valid : ¬(f.address = 0 ∨ 248 ≤ f.address.toNat) := by
      rintro (e | e)
      · rw [e] at low; exact absurd low (by decide)
      · omega
    simp only [good, valid, show ¬ 240 ≤ f.address.toNat by omega, relay, if_false, Bool.not_true, Bool.false_eq_true]

theorem State.takeFrame_elsewhere (low : 240 ≤ f.address.toNat) (high : f.address.toNat ≤ 247)
    (other : f.address ≠ s.station) : s.takeFrame f = { s with receiver := .hunting } := by
  have valid : ¬(f.address = 0 ∨ 248 ≤ f.address.toNat) := by
    rintro (e | e)
    · rw [e] at low; exact absurd low (by decide)
    · omega
  have there : f.address ≠ State.station { s with receiver := .hunting } := other
  rw [State.takeFrame]
  simp only [good, valid, low, if_pos there, if_true, if_false, Bool.not_true, Bool.false_eq_true]

theorem State.takeFrame_here (address : f.address = s.station) (kind : f.kind = kindMgmtReq ∨ f.kind = kindAck) :
    s.takeFrame f = if f.kind = kindMgmtReq then s.goodFrame (State.takePayload f.third f.payload)
      else s.goodFrame fun s => s.takeAck f.third f.payload := by
  have range := s.station_range
  rw [← address] at range
  have valid : ¬(f.address = 0 ∨ 248 ≤ f.address.toNat) := by
    rintro (e | e)
    · rw [e] at range; exact absurd range.1 (by decide)
    · omega
  have here : ¬ f.address ≠ State.station { s with receiver := .hunting } := fun e => e address
  rw [State.takeFrame]
  simp only [good, valid, range.1, if_true, if_false, Bool.not_true, Bool.false_eq_true, if_neg here]
  by_cases mgmt : f.kind = kindMgmtReq
  · rw [if_pos mgmt, if_pos mgmt]
    rfl
  · rw [if_neg mgmt, if_neg mgmt, if_pos (kind.resolve_left mgmt)]
    rfl

theorem State.takeFrame_request (address : f.address = s.station) (kind : f.kind = kindMgmtReq) :
    s.takeFrame f = s.goodFrame (State.takePayload f.third f.payload) :=
  (State.takeFrame_here good address (.inl kind)).trans (if_pos kind)

theorem State.takeFrame_ack (address : f.address = s.station) (kind : f.kind = kindAck) :
    s.takeFrame f = s.goodFrame fun s => s.takeAck f.third f.payload :=
  (State.takeFrame_here good address (.inr kind)).trans (if_neg (by rw [kind]; decide))

theorem State.takeFrame_relay (low : 1 ≤ f.address.toNat) (high : f.address.toNat ≤ 239) (kind : f.kind = kindRelay) :
    s.takeFrame f = s.goodFrame fun s => s.takeRelay f.address.toNat f.third f.payload := by
  have valid : ¬(f.address = 0 ∨ 248 ≤ f.address.toNat) := by
    rintro (e | e)
    · rw [e] at low; exact absurd low (by decide)
    · omega
  rw [State.takeFrame]
  simp only [good, valid, show ¬ 240 ≤ f.address.toNat by omega, if_pos kind, if_false, Bool.not_true,
    Bool.false_eq_true]
  rfl

end

/-! ### The arrival of a good frame -/

theorem State.arrived_of_not_down (h : s.du.trunk ≠ .down) :
    s.arrived = { s with receiver := .hunting, rx := { s.rx with good := bump s.rx.good } } := by
  rw [State.arrived, State.recover]
  split
  · rfl
  · rfl
  · rename_i down; exact absurd down h

theorem State.arrived_of_down (h : s.du.trunk = .down) :
    s.arrived = State.choice { s with
      receiver := .hunting
      rx := { s.rx with good := bump s.rx.good }
      eu := { s.eu with device := s.eu.device.raise 0x10 }
      du := { s.du with
        trunk := .up, timeoutCount := 0
        round := if s.sentCount = 0 then s.du.round else some s.oldestSeq
        timer := if s.sentCount = 0 then s.du.timer else some 0 } } := by
  simp only [State.arrived, State.recover, h]
  by_cases idle : s.sentCount = 0
  · rw [if_pos idle, if_pos idle]
    exact congrArg State.choice (if_pos idle)
  · rw [if_neg idle, if_neg idle]
    exact congrArg State.choice (if_neg idle)

/-! ### The rows -/

/-- A good frame for the part is what the row of that frame does (R12, R13). -/
theorem exec_trunkFrame {i : Instr} (wf : i.wf = true) (hf : i.trunkFrame s.station = some f) :
    exec i s = .next (s.takeFrame f) := by
  rcases hrequest : i.request with _ | ⟨tag, payload⟩
  · cases i <;> cases hrequest <;> cases hf
    case none.ack.refl.refl next payload =>
      exact congrArg Host.Outcome.next (State.takeFrame_ack (s := s)
        (f := LineFrame.sealed s.station kindAck next payload) (sealed_checkAgrees ..) rfl rfl).symm
    case none.relay.refl.refl a tag payload =>
      obtain ⟨low, high, -⟩ := of_decide_eq_true wf
      exact congrArg Host.Outcome.next (State.takeFrame_relay (s := s) (f := LineFrame.sealed a kindRelay tag payload)
        (sealed_checkAgrees ..) low high rfl).symm
  · have frame : f = LineFrame.sealed s.station kindMgmtReq tag payload := by
      cases i <;> cases hrequest <;> cases hf <;> rfl
    have address : f.address = s.station := by rw [frame]; rfl
    have kind : f.kind = kindMgmtReq := by rw [frame]; rfl
    have good : f.checkAgrees = true := by rw [frame]; exact sealed_checkAgrees ..
    rw [exec_request hrequest, State.takeFrame_request good address kind, frame]
    rfl

end
end Sys2Proof.Machine

namespace Sys2Proof.Trunk
open Sys2Proof.Machine

/-- Settles O11: TRX by its state, each character one turn of `State.receive`. -/
theorem trunkReception : Obligations.TrunkReception := by
  refine ⟨fun s v => ⟨fun hunting => ⟨?_, ?_⟩, fun taken receiving begun => ⟨fun more => ?_, fun f fits values => ?_⟩⟩,
    fun s v => ⟨fun taken receiving => ⟨?_, ?_, fun three exceeds => ?_, ?_⟩, fun hunting => ?_, fun marker => rfl⟩⟩
  · simp only [exec, execTrunkCharacter, State.receive, hunting]
  · simp only [exec, execTrunkCharacter, State.receive, hunting]
  · exact congrArg Host.Outcome.next (State.receive_more receiving (takeData_more more))
  · exact congrArg Host.Outcome.next
      (State.receive_complete receiving (takeData_complete (Nat.lt_of_le_of_lt fits (by decide)) values))
  · simp only [exec, execTrunkFragment, State.receive, receiving, State.abandonFrame]
  · simp only [exec, execTrunkFragment, State.receive, receiving, State.abandonFrame]
  · exact congrArg Host.Outcome.next (State.receive_overLength receiving (takeData_overLength three exceeds))
  · simp only [exec, execTrunkGap, receiving, State.abandonFrame]
  · simp only [exec, execTrunkFragment, State.receive, hunting]

/-- Settles O12: R12 in its order, and the arrival by the state of the trunk. -/
theorem completeFrameJudged : Obligations.CompleteFrameJudged := by
  refine ⟨fun s f => ⟨fun bad => ?_, fun good => ⟨fun h => congrArg Host.Outcome.next (State.takeFrame_badAddress good h),
    fun ⟨low, high, other⟩ => congrArg Host.Outcome.next (State.takeFrame_elsewhere good low high other),
    fun ⟨here, kind⟩ => congrArg Host.Outcome.next (State.takeFrame_request good here kind),
    fun ⟨here, kind⟩ => congrArg Host.Outcome.next (State.takeFrame_ack good here kind),
    fun ⟨low, high, kind⟩ => congrArg Host.Outcome.next (State.takeFrame_relay good low high kind)⟩⟩,
    fun s => ⟨State.arrived_of_not_down, State.arrived_of_down⟩, fun s => rfl, fun c => rfl⟩
  simp only [exec, execTrunkFrameDiscard, State.takeFrame, bad, Bool.not_false, if_true]

/-- Settles O13: the characters of a row's frame come to the frame, and the frame of a row for the part comes to what
the row does. -/
theorem rowsAreTheirFrames : Obligations.RowsAreTheirFrames := by
  refine ⟨fun i s f wf frame hunting => ?_, fun station tag a p => ⟨rfl, rfl, fun i q request => ?_⟩,
    fun tag key item x y rest write => ?_, fun f => ⟨rfl, LineFrame.characters_eq f⟩,
    fun s marker v rest => ⟨rfl, _, rfl, rfl⟩⟩
  · obtain ⟨fits, -, -⟩ := Laws.TrunkBytes.statement i s.strap f wf frame
    rw [State.receiveAll_characters fits hunting]
    exact exec_trunkFrame wf frame
  · cases i <;> cases request <;> rfl
  · refine ⟨rfl, rfl, rfl, rfl, rfl, rfl, rfl, rfl, rfl, rfl, rfl, rfl, rfl, rfl, rfl, rfl, rfl, rfl, rfl, rfl, rfl,
      rfl, rfl, rfl, rfl, rfl, rfl⟩

end Sys2Proof.Trunk
end

section
/-! PROOFS. The Delivery Unit: the end of a frame and the retransmit timer, the order of the arbiter, and the frames it
sends (R125, R131, R137 to R140, R146 to R149, R178, R179). -/
namespace Sys2Proof.Machine

section
variable {s t : State} {c : UplinkClass} {e : Entry} {p q : BitVec 4}

/-! ### The two events of the Delivery Unit -/

theorem exec_retransmitTimerExpiry (h : s.du.timer ≠ none) :
    exec .retransmitTimerExpiry s = .next s.expire.choice := by
  obtain ⟨started, ht⟩ := Option.ne_none_iff_exists'.1 h
  simp only [exec, execRetransmitTimerExpiry, ht]

theorem exec_trunkFrameEnd (h : s.du.transmitter ≠ none) :
    exec .trunkFrameEnd s = .next (State.choice { s with du := { s.du with transmitter := none } }) := by
  obtain ⟨frame, hf⟩ := Option.ne_none_iff_exists'.1 h
  simp only [exec, execTrunkFrameEnd, hf]

/-! ### First transmissions -/

/-- The first entry of a class that waits is the one marked, where it stands (R116, R140). -/
theorem markSent_first {pre post : List Entry} (waits : e.waits c) (first : ∀ x ∈ pre, ¬ x.waits c) :
    markSent c q (pre ++ e :: post) = some (e, pre ++ { e with state := .sent q } :: post) := by
  induction pre with
  | nil => exact if_pos waits
  | cons x pre ih =>
    have later : ¬ (x.state = .queued ∧ x.cls = c) := first x (by simp)
    rw [List.cons_append, markSent, if_neg later, ih fun y hy => first y (List.mem_cons_of_mem _ hy)]
    rfl

theorem State.firstTransmission_first {pre post : List Entry} (pool : s.pool = pre ++ e :: post) (waits : e.waits c)
    (first : ∀ x ∈ pre, ¬ x.waits c) :
    s.firstTransmission c = some { s with
      pool := pre ++ { e with state := .sent s.du.nextSeq } :: post
      du := { s.du with
        nextSeq := s.du.nextSeq + 1
        timer := if s.sentCount = 0 then some 0 else s.du.timer
        transmitter := some (s.uplinkFrame e s.du.nextSeq)
        framesSent := bump s.du.framesSent } } := by
  simp only [State.firstTransmission, pool, markSent_first waits first]

theorem State.firstTransmission_isSome : (s.firstTransmission c).isSome ↔ ∃ e ∈ s.pool, e.waits c := by
  rw [← Option.ne_none_iff_isSome, Ne, State.firstTransmission_none]
  simp only [not_forall, not_not, exists_prop]

theorem State.sendAlert_none (h : s.eu.anyPending = false ∨ 48 ≤ s.occupancy) : s.sendAlert = none := by
  refine if_neg ?_
  rintro ⟨pending, room⟩
  rcases h with h | h
  · rw [h] at pending; cases pending
  · exact absurd room (Nat.not_lt.2 h)

/-- With a group pending and room, the snapshot joins the pool and goes out as an ALERT (R125, R139, R179). -/
theorem State.sendAlert_pending (pending : s.eu.anyPending = true) (room : s.occupancy < 48) :
    s.sendAlert = State.firstTransmission { s.addEntry .alert s.eu.snapshot with eu := s.eu.told } .alert :=
  if_pos ⟨pending, room⟩

theorem State.sendAlert_isSome (pending : s.eu.anyPending = true) (room : s.occupancy < 48) :
    s.sendAlert.isSome := by
  rw [State.sendAlert_pending pending room, State.firstTransmission_isSome]
  exact ⟨_, List.mem_append_right _ (List.mem_singleton_self _), rfl, rfl⟩

theorem State.not_waits_of_queuedCount (h : s.queuedCount c = 0) : ∀ x ∈ s.pool, ¬ x.waits c := by
  rintro x hx ⟨queued, cls⟩
  exact List.countP_eq_zero.1 h x hx (by simp [Entry.isQueued, queued, cls])

/-! ### The order of the arbiter -/

theorem State.arbiter_round (h : s.du.round = some p) : s.arbiter = s.resend p := by
  simp only [State.arbiter, h]

theorem State.arbiter_full (round : s.du.round = none) (full : s.du.window ≤ s.sentCount) : s.arbiter = s := by
  simp only [State.arbiter, round, if_pos full]

/-- With no round open and room in the window, the first of the four classes that has something to send (R139). -/
theorem State.arbiter_open (round : s.du.round = none) (room : s.sentCount < s.du.window) :
    s.arbiter = ((((s.firstTransmission .mgmtResp).or s.sendAlert).or (s.firstTransmission .result)).or
      (s.firstTransmission .report)).getD s := by
  simp only [State.arbiter, round, if_neg (Nat.not_le.2 room)]
  cases s.firstTransmission .mgmtResp with
  | some t => rfl
  | none =>
    cases s.sendAlert with
    | some t => rfl
    | none => cases s.firstTransmission .result <;> rfl

/-! ### Groups and snapshots -/

theorem EventUnit.anyPending_iff (eu : EventUnit) : eu.anyPending = true ↔ ∃ g, (eu.group g).pending = true := by
  simp only [EventUnit.anyPending, Bool.or_eq_true]
  constructor
  · rintro ((((h | h) | h) | h) | h)
    · exact ⟨.branch .b0, h⟩
    · exact ⟨.branch .b1, h⟩
    · exact ⟨.branch .b2, h⟩
    · exact ⟨.branch .b3, h⟩
    · exact ⟨.device, h⟩
  · rintro ⟨_ | _, h⟩
    · rename_i b
      cases b
      · exact .inl (.inl (.inl (.inl h)))
      · exact .inl (.inl (.inl (.inr h)))
      · exact .inl (.inl (.inr h))
      · exact .inl (.inr h)
    · exact .inr h

/-- The bytes a group gives to a snapshot: none unless it is pending (R131, R179). -/
def EventUnit.carriedBytes (eu : EventUnit) (g : Group) : List Byte :=
  if (eu.group g).pending then [(eu.group g).flags, eu.lastNodeByte g] else []

theorem flatMap_filter {α β : Type} (p : α → Bool) (f : α → List β) (l : List α) :
    (l.filter p).flatMap f = l.flatMap fun a => if p a then f a else [] := by
  induction l with
  | nil => rfl
  | cons a l ih =>
    rw [List.filter_cons, List.flatMap_cons, ← ih]
    split <;> rfl

theorem EventUnit.pendingGroups_bytes (eu : EventUnit) :
    (eu.pendingGroups.flatMap fun g => [(eu.group g.1).flags, eu.lastNodeByte g.1]) =
      eu.carriedBytes (.branch .b0) ++ eu.carriedBytes (.branch .b1) ++ eu.carriedBytes (.branch .b2) ++
        eu.carriedBytes (.branch .b3) ++ eu.carriedBytes .device := by
  rw [EventUnit.pendingGroups, flatMap_filter]
  simp only [groupBits, List.flatMap_cons, List.flatMap_nil, List.append_nil, List.append_assoc]
  rfl

/-- The bits of the marks that are set (Formats). -/
def markBits (marks : List (Bool × Byte)) : Byte := (marks.filter (·.1)).foldl (fun m g => m ||| g.2) 0

theorem markBits_getLsbD : ∀ p0 p1 p2 p3 p4 : Bool, ∀ i < 8,
    (markBits [(p0, 0x01), (p1, 0x02), (p2, 0x04), (p3, 0x08), (p4, 0x10)]).getLsbD i =
      [p0, p1, p2, p3, p4].getD i false := by decide

theorem EventUnit.pendingGroups_mask (eu : EventUnit) :
    eu.pendingGroups.foldl (fun m g => m ||| g.2) (0 : Byte) =
      markBits (groupBits.map fun g => ((eu.group g.1).pending, g.2)) := by
  rw [markBits, List.filter_map, List.foldl_map]
  rfl

/-- Bit `i` of the group mask is the pending mark of group `i` (Formats). -/
theorem EventUnit.mask_bits (eu : EventUnit) (i : Nat) :
    (eu.pendingGroups.foldl (fun m g => m ||| g.2) (0 : Byte)).getLsbD i =
      [eu.groups.b0.pending, eu.groups.b1.pending, eu.groups.b2.pending, eu.groups.b3.pending,
        eu.device.pending].getD i false := by
  by_cases low : i < 8
  · rw [EventUnit.pendingGroups_mask]
    exact markBits_getLsbD _ _ _ _ _ i low
  · rw [BitVec.getLsbD_of_ge _ _ (Nat.not_lt.1 low), List.getD_eq_default]
    exact Nat.le_trans (Nat.le_of_ble_eq_true rfl) (Nat.not_lt.1 low)


end
end Sys2Proof.Machine

namespace Sys2Proof.Transmission
open Sys2Proof.Machine

/-- Settles O15: below the fail limit, and at or above it, when the trunk that is DOWN makes no choice. -/
theorem retransmitTimerExpires : Obligations.RetransmitTimerExpires := by
  refine ⟨fun s => ⟨fun runs below => ?_, fun runs reached => ?_⟩, fun s => rfl⟩
  · rw [exec_retransmitTimerExpiry runs, State.expire, if_pos below]
  · rw [exec_retransmitTimerExpiry runs, State.expire, if_neg (Nat.not_lt.2 reached), State.choice_idle (.inr rfl)]

/-- Settles O16: the arbiter with the transmitter freed, class by class. -/
theorem arbiterOrder : Obligations.ArbiterOrder := by
  refine ⟨fun s sends => ⟨State.choice_idle (.inl sends), ?_⟩, fun eu => ⟨eu.anyPending_iff, fun b => rfl, rfl⟩⟩
  intro u
  have frameEnd : exec .trunkFrameEnd s = .next u.choice := exec_trunkFrameEnd sends
  have free : u.du.transmitter = none := rfl
  have trunk : u.du.trunk = s.du.trunk := rfl
  have round : u.du.round = s.du.round := rfl
  have window : u.du.window = s.du.window := rfl
  have pool : u.pool = s.pool := rfl
  have sent : u.sentCount = s.sentCount := rfl
  have pending : u.eu.anyPending = s.eu.anyPending := rfl
  have occupancy : u.occupancy = s.occupancy := rfl
  clear_value u
  rw [frameEnd]
  refine ⟨rfl, ?_⟩
  intro waits
  refine ⟨fun down => by rw [State.choice_idle (.inr (trunk.trans down))], fun up => ?_⟩
  rw [State.choice_free free (by rwa [trunk])]
  have some_ : ∀ {c}, waits c → ∃ t, u.firstTransmission c = some t := fun h =>
    Option.isSome_iff_exists.1 (State.firstTransmission_isSome.2 (by rw [pool]; exact h))
  have none_ : ∀ {c}, ¬ waits c → u.firstTransmission c = none := fun h =>
    State.firstTransmission_none.2 fun e he w => h ⟨e, pool ▸ he, w⟩
  refine ⟨fun p hp => by rw [State.arbiter_round (round.trans hp)], fun closed =>
    ⟨fun full => by rw [State.arbiter_full (round.trans closed) (by omega)], fun room => ?_⟩⟩
  rw [State.arbiter_open (round.trans closed) (by omega)]
  refine ⟨fun w => ?_, fun noResponse => ⟨fun marked free => ?_, fun quiet => ⟨fun w => ?_, fun noResult =>
    ⟨fun w => ?_, fun noReport => ?_⟩⟩⟩⟩
  · obtain ⟨t, ht⟩ := some_ w
    exact ⟨t, ht, by rw [ht]; rfl⟩
  · obtain ⟨t, ht⟩ := Option.isSome_iff_exists.1
      (State.sendAlert_isSome (pending.trans marked) (by omega))
    exact ⟨t, ht, by rw [none_ noResponse, ht]; rfl⟩
  all_goals
    have alert : u.sendAlert = none := State.sendAlert_none (by rwa [pending, occupancy])
    rw [none_ noResponse, alert]
  · obtain ⟨t, ht⟩ := some_ w
    exact ⟨t, ht, by rw [ht]; rfl⟩
  · obtain ⟨t, ht⟩ := some_ w
    exact ⟨t, ht, by rw [none_ noResult, ht]; rfl⟩
  · rw [none_ noResult, none_ noReport]
    rfl

/-- Settles O17: the entry a first transmission and a resend take, the bytes of a snapshot group by group, and the ALERT
as a first transmission of the entry just admitted. -/
theorem transmissions : Obligations.Transmissions := by
  refine ⟨⟨fun u pre post e pool queued first => State.firstTransmission_first pool ⟨queued, rfl⟩ first,
    fun u pre post e q pool sent first => ?_⟩, fun eu => ⟨_, ?_, eu.mask_bits, rfl⟩,
    fun u => ⟨State.sendAlert_none, fun pending room none_ => ?_⟩, rfl, rfl, fun s => ?_⟩
  · have found : (u.pool.find? fun e => e.state == .sent q) = some e := by
      rw [pool, List.find?_append, List.find?_eq_none.2 fun x hx => by simpa using first x hx]
      simp [sent]
    simp only [State.resend, found]
    rfl
  · exact congrArg (eu.cause.code :: _ :: ·) eu.pendingGroups_bytes
  · rw [State.sendAlert_pending pending room]
    have sent : State.sentCount { u.addEntry .alert u.eu.snapshot with eu := u.eu.told } = u.sentCount :=
      State.addEntry_sentCount ..
    refine (State.firstTransmission_first (s := { u.addEntry .alert u.eu.snapshot with eu := u.eu.told })
      (e := { cls := .alert, payload := u.eu.snapshot, state := .queued }) (post := []) rfl ⟨rfl, rfl⟩
      (State.not_waits_of_queuedCount none_)).trans ?_
    rw [sent]
    rfl
  · rw [State.sentCount, List.countP_eq_length_filter]
    rfl

end Sys2Proof.Transmission
end

section
/-! PROOFS. The reads: what each table returns, and what a READ and the Delivery Unit's own commands leave unchanged
(R20, R46, R99, R133, R160 to R164, R191). -/
namespace Sys2Proof.Machine

section
variable {s : State} {tag key item selector : Byte} {data : List Byte} {status : Status} {f : State → Reply}

/-! ### A request that only reads -/

theorem State.requestFrame_reading (s : State) (tag : Byte) (f : State → Reply) :
    s.requestFrame tag (reading f) =
      s.arrived.answered tag (f (s.inHand tag)).status (f (s.inHand tag)).data := State.inHand_answered ..

theorem requestFrame_reading_refused (h : f (s.inHand tag) = .refused status) :
    s.requestFrame tag (reading f) = s.arrived.answered tag status [] := by
  rw [State.requestFrame_reading, h]
  rfl

theorem requestFrame_reading_with (h : f (s.inHand tag) = .with data) :
    s.requestFrame tag (reading f) = s.arrived.answered tag .ok data := by
  rw [State.requestFrame_reading, h]
  rfl

theorem requestFrame_reading_plain (h : f (s.inHand tag) = plainRead 0 item selector data) :
    s.requestFrame tag (reading f) = s.arrived.answeredPlain tag item selector data := by
  rw [State.requestFrame_reading, h, ← State.inHand_answered]
  exact plainRead_answered ..

/-- A table without a key (R160). -/
theorem plainRead_key (key item selector : Byte) (data : List Byte) :
    plainRead key item selector data = if key ≠ 0 then .refused .badIndex else plainRead 0 item selector data := by
  by_cases h : key = 0
  · rw [if_neg (not_not_intro h), h]
  · rw [if_pos h, plainRead, if_pos (.inl h)]

theorem requestFrame_reading_device (h : f (s.inHand tag) = plainRead key item selector data) :
    s.requestFrame tag (reading f) = if key ≠ 0 then s.arrived.answered tag .badIndex []
      else s.arrived.answeredPlain tag item selector data := by
  rw [plainRead_key] at h
  split at h
  · rename_i hkey
    rw [if_pos hkey, requestFrame_reading_refused h]
  · rename_i hkey
    rw [if_neg hkey, requestFrame_reading_plain h]

/-! ### The records a READ NODE finds -/

/-- The record of the lowest address above `a`, in an ascending table (R20). -/
theorem nextNode_lowest {l : List NodeRecord} {a : Nat} {r : NodeRecord}
    (ascending : l.Pairwise fun q r => q.address < r.address) (h : nextNode a l = some r) :
    a < r.address ∧ ∀ q ∈ l, a < q.address → r.address ≤ q.address := by
  induction l with
  | nil => cases h
  | cons p l ih =>
    obtain ⟨least, rest⟩ := List.pairwise_cons.1 ascending
    rw [nextNode] at h
    split at h
    · rename_i above
      cases h
      refine ⟨above, fun q hq _ => ?_⟩
      rcases List.mem_cons.1 hq with rfl | hq
      · exact Nat.le_refl _
      · exact Nat.le_of_lt (least q hq)
    · rename_i below
      obtain ⟨above, lowest⟩ := ih rest h
      refine ⟨above, fun q hq hqa => ?_⟩
      rcases List.mem_cons.1 hq with rfl | hq
      · exact absurd hqa below
      · exact lowest q hq hqa

/-- What READ NODE finds: the record of the address, or with "next" the lowest above it (R20, R161). -/
theorem readNode_found_iff {l : List NodeRecord} (ascending : l.Pairwise fun q r => q.address < r.address) (next : Bool)
    (a : Nat) (r : NodeRecord) :
    (if next then nextNode a l else findNode a l) = some r ↔
      r ∈ l ∧ if next then a < r.address ∧ ∀ q ∈ l, a < q.address → r.address ≤ q.address else r.address = a := by
  cases next
  · refine ⟨findNode_some, fun ⟨hr, address⟩ => ?_⟩
    have address : r.address = a := address
    rw [← address]
    exact findNode_of_mem ascending hr
  · exact ⟨fun h => ⟨mem_of_nextNode h, nextNode_lowest ascending h⟩,
      fun ⟨hr, above, lowest⟩ => nextNode_of_lowest ascending hr above lowest⟩

section
variable {key item selector : Byte} {u : State}

theorem readNode_outside_iff :
    (key.toNat < (if selector.getLsbD 1 then 0 else 1) ∨ 239 < key.toNat ∨ item ≠ 0) ↔
      (key = 0 ∧ selector.getLsbD 1 = false) ∨ 239 < key.toNat ∨ item ≠ 0 := by
  have zero : key.toNat < 1 ↔ key = 0 := by bv_omega
  refine or_congr_left ?_
  cases selector.getLsbD 1 <;> simp [zero]

theorem readNode_badIndex (h : (key = 0 ∧ selector.getLsbD 1 = false) ∨ 239 < key.toNat ∨ item ≠ 0) :
    readNode key item selector u = .refused .badIndex := by
  rw [readNode, if_pos (readNode_outside_iff.2 h)]

section
variable (inside : ¬((key = 0 ∧ selector.getLsbD 1 = false) ∨ 239 < key.toNat ∨ item ≠ 0))
include inside

theorem readNode_badValue (h : 3 < selector.toNat) : readNode key item selector u = .refused .badValue := by
  rw [readNode, if_neg (mt readNode_outside_iff.1 inside), if_pos h]

theorem readNode_noEntry (valid : selector.toNat ≤ 3)
    (h : (if selector.getLsbD 1 then nextNode key.toNat u.nodes else u.node? key.toNat) = none) :
    readNode key item selector u = .refused .noEntry := by
  simp only [readNode, if_neg (mt readNode_outside_iff.1 inside), if_neg (Nat.not_lt.2 valid), h]

theorem readNode_record {r : NodeRecord} (valid : selector.toNat ≤ 3)
    (h : (if selector.getLsbD 1 then nextNode key.toNat u.nodes else u.node? key.toNat) = some r) :
    readNode key item selector u = .with (if selector.getLsbD 0 then r.valuePart else r.recordPart) := by
  simp only [readNode, if_neg (mt readNode_outside_iff.1 inside), if_neg (Nat.not_lt.2 valid), h]

end

/-! ### Banks and queues -/

section
variable {b : Branch} (hb : Branch.ofNat? key.toNat = some b)
include hb

theorem readSched_badIndex (h : 31 < item.toNat ∨ (item ≠ 0 ∧ (selector = 2 ∨ selector = 3))) :
    readSched key item selector u = .refused .badIndex := by
  simp only [readSched, hb, if_pos (h.imp_right And.symm)]

theorem readSched_badValue (fits : item.toNat ≤ 31) (h : 3 < selector.toNat) :
    readSched key item selector u = .refused .badValue := by
  have entry : ¬(selector = 2 ∨ selector = 3) := by
    rintro (rfl | rfl) <;> exact absurd h (by decide)
  simp only [readSched, hb]
  rw [if_neg (fun k => k.elim (Nat.not_lt.2 fits) fun k => entry k.1), if_pos h]

/-- The bank a READ SCHED reads (R46). -/
def BranchState.readBank (B : BranchState) (selector : Byte) : Bank :=
  if selector = 0 ∨ selector = 2 then if B.activeBank = .a then B.bankA else B.bankB
  else if B.activeBank = .a then B.bankB else B.bankA

omit hb in
theorem BranchState.readBank_eq {B : BranchState} (valid : selector ∈ [0, 1, 2, 3]) :
    B.bank (if selector.getLsbD 0 then B.activeBank.other else B.activeBank) = B.readBank selector := by
  simp only [List.mem_cons, List.not_mem_nil, or_false] at valid
  rw [BranchState.readBank]
  rcases valid with rfl | rfl | rfl | rfl <;> cases B.activeBank <;> rfl

theorem readSched_entry (fits : item.toNat < 32) (h : selector = 0 ∨ selector = 1) :
    readSched key item selector u = .with ((u.br b).readBank selector).entries[item.toNat].data := by
  have entry : ¬(selector = 2 ∨ selector = 3) := by rcases h with rfl | rfl <;> decide
  have valid : ¬ 3 < selector.toNat := by rcases h with rfl | rfl <;> decide
  simp only [readSched, hb]
  rw [if_neg (fun k => k.elim (by omega) fun k => entry k.1), if_neg valid, if_neg entry,
    BranchState.readBank_eq (by rcases h with rfl | rfl <;> decide), List.getD_eq_getElem _ _ (by simpa using fits),
    Vector.getElem_toList]

theorem readSched_header (zero : item = 0) (h : selector = 2 ∨ selector = 3) :
    readSched key item selector u = .with ((u.br b).readBank selector).header := by
  have valid : ¬ 3 < selector.toNat := by rcases h with rfl | rfl <;> decide
  have inside : ¬(31 < item.toNat ∨ (selector = 2 ∨ selector = 3) ∧ item ≠ 0) := by
    rintro (k | ⟨-, k⟩)
    · rw [zero] at k; exact absurd k (by decide)
    · exact k zero
  simp only [readSched, hb]
  rw [if_neg inside, if_neg valid, if_pos h, BranchState.readBank_eq (by rcases h with rfl | rfl <;> decide)]

theorem readQueue_badIndex (h : 7 < item.toNat) : readQueue key item selector u = .refused .badIndex := by
  simp only [readQueue, hb, if_pos h]

theorem readQueue_badValue (fits : item.toNat ≤ 7) (h : selector ≠ 0) :
    readQueue key item selector u = .refused .badValue := by
  simp only [readQueue, hb, if_neg (Nat.not_lt.2 fits), if_pos h]

theorem readQueue_noEntry (fits : item.toNat ≤ 7) (zero : selector = 0) (h : (u.br b).queue.length ≤ item.toNat) :
    readQueue key item selector u = .refused .noEntry := by
  simp only [readQueue, hb, if_neg (Nat.not_lt.2 fits), if_neg (not_not_intro zero), List.getElem?_eq_none h]

theorem readQueue_command {c : Command} (fits : item.toNat ≤ 7) (zero : selector = 0)
    (h : (u.br b).queue[item.toNat]? = some c) : readQueue key item selector u = .with c.data := by
  simp only [readQueue, hb, if_neg (Nat.not_lt.2 fits), if_neg (not_not_intro zero), h]

end
end

/-! ### What a read and a delivery command leave -/

section
variable {u t : State}

/-- The choice takes an ALERT's marks, and clears no flag (R179). -/
theorem State.choice_flags (u : State) (g : Group) : (u.choice.eu.group g).flags = (u.eu.group g).flags := by
  refine keeps_choice (P := fun t => (t.eu.group g).flags = (u.eu.group g).flags) rfl (fun p _ _ hs => ?_)
    (fun v t c _ _ _ _ _ hv h => ?_) fun _ hs => ?_
  · rw [State.resend]
    split <;> exact hs
  · obtain ⟨_, _, _, _, _, _, rfl⟩ := State.firstTransmission_some h
    exact hv
  · change (u.eu.told.group g).flags = _
    rw [EventUnit.told_group]

theorem State.recover_branchFlags (u : State) (b : Branch) :
    (u.recover.eu.groups.get b).flags = (u.eu.groups.get b).flags := by
  rcases u.recover_cases with ⟨-, h⟩ | ⟨-, -, h⟩ | ⟨-, -, h⟩ <;> rw [h]
  · exact State.choice_flags _ (.branch b)
  · exact State.choice_flags _ (.branch b)

theorem State.respond_step (u : State) (tag : Byte) (r : Reply) :
    ∃ d, DeliveryStep { u with droppedResponses := d } (u.respond tag r) ∧
      ∀ b, ((u.respond tag r).eu.groups.get b).flags = (u.eu.groups.get b).flags := by
  rcases u.respond_cases tag r with ⟨-, -, h⟩ | ⟨-, h⟩ <;> rw [h]
  · exact ⟨u.droppedResponses, deliveryStep_of (du := u.du) rfl rfl rfl, fun b => rfl⟩
  · exact ⟨bump u.droppedResponses,
      deliveryStep_signalDevice (s := { u with droppedResponses := bump u.droppedResponses }) .mgmtDropped, fun b => rfl⟩

/-- An answer reaches what the Delivery Unit can, the tag and the dropped responses (R121, R157, R158). -/
theorem State.answered_step (u : State) (tag : Byte) (status : Status) (data : List Byte) :
    ∃ d, DeliveryStep { u with muTag := none, droppedResponses := d } (u.answered tag status data) ∧
      ∀ b, ((u.answered tag status data).eu.groups.get b).flags = (u.eu.groups.get b).flags := by
  obtain ⟨d, step, flags⟩ := u.respond_step tag { status := status, data := data }
  have released : DeliveryStep { u with muTag := none, droppedResponses := d }
      { u.respond tag { status := status, data := data } with muTag := none } := { step with muTag := rfl }
  exact ⟨d, released.trans deliveryStep_choice, fun b => (State.choice_flags _ (.branch b)).trans (flags b)⟩

/-- A READ of any table comes to an answer (R160). -/
theorem exec_read_answered {tag key item selector : Byte} {c : Instr}
    (hc : c ∈ [.readDevice tag key item selector, .readBranch tag key item selector, .readNode tag key item selector,
      .readSched tag key item selector, .readQueue tag key item selector, .readFlags tag key item selector,
      .readCounters tag key item selector, .readPool tag key item selector]) (s : State) :
    ∃ r : Reply, exec c s = .next (s.arrived.answered tag r.status r.data) := by
  have read : ∀ f : State → Reply, ∃ r : Reply, Host.Outcome.next (s.requestFrame tag (reading f)) =
      (Host.Outcome.next (s.arrived.answered tag r.status r.data) : Host.Outcome State Fault Refusal) := fun f =>
    ⟨_, congrArg Host.Outcome.next (State.requestFrame_reading s tag f)⟩
  simp only [List.mem_cons, List.not_mem_nil, or_false] at hc
  rcases hc with rfl | rfl | rfl | rfl | rfl | rfl | rfl | rfl <;> exact read _

/-- The Delivery Unit's own commands reach the receiver and the good frames, by an ACK's arrival, and what the Delivery
Unit can (R136 to R156). -/
theorem exec_delivery_step {c : Instr} {next : Byte} {payload : List Byte}
    (hc : c ∈ [.ack next payload, .trunkFrameEnd, .retransmitTimerExpiry]) (h : exec c s = .next t) :
    ∃ receiver good, DeliveryStep { s with receiver := receiver, rx := { s.rx with good := good } } t := by
  simp only [List.mem_cons, List.not_mem_nil, or_false] at hc
  rcases hc with rfl | rfl | rfl
  · cases h
    exact ⟨.hunting, bump s.rx.good,
      ((deliveryStep_arrived s).trans (deliveryStep_takeAck next payload)).trans deliveryStep_choice⟩
  · refine ⟨s.receiver, s.rx.good, ?_⟩
    cases hs : s.du.transmitter with
    | none =>
      simp only [exec, execTrunkFrameEnd, hs, Host.Outcome.next.injEq] at h
      rw [← h]
      exact .rfl
    | some f =>
      rw [exec_trunkFrameEnd (by rw [hs]; exact Option.some_ne_none f)] at h
      cases h
      exact DeliveryStep.trans (deliveryStep_of (pool := s.pool) (du := { s.du with transmitter := none }) rfl rfl rfl)
        deliveryStep_choice
  · refine ⟨s.receiver, s.rx.good, ?_⟩
    cases hs : s.du.timer with
    | none =>
      simp only [exec, execRetransmitTimerExpiry, hs, Host.Outcome.next.injEq] at h
      rw [← h]
      exact .rfl
    | some n =>
      rw [exec_retransmitTimerExpiry (by rw [hs]; exact Option.some_ne_none n)] at h
      cases h
      exact deliveryStep_expire.trans deliveryStep_choice

end

end
end Sys2Proof.Machine

namespace Sys2Proof.Reads
open Sys2Proof.Machine

/-- Settles O19: each table's reply is a plain read of its bytes. -/
theorem readPlainTables : Obligations.ReadPlainTables := by
  refine ⟨fun s tag key item selector => ⟨congrArg Host.Outcome.next (requestFrame_reading_device rfl),
      congrArg Host.Outcome.next (requestFrame_reading_device rfl)⟩,
    fun s tag item selector => ⟨fun key out => ?_, fun key out => ⟨?_, ?_⟩, fun b => ⟨?_, ?_, ?_⟩,
      congrArg Host.Outcome.next (requestFrame_reading_plain rfl),
      congrArg Host.Outcome.next (requestFrame_reading_plain rfl)⟩,
    fun u tag item selector data => rfl, rfl, rfl, rfl, rfl, rfl, rfl, rfl, fun v => ?_⟩
  · exact congrArg Host.Outcome.next (requestFrame_reading_refused (by rw [readBranch, Branch.ofNat?_none out]))
  · exact congrArg Host.Outcome.next (requestFrame_reading_refused (by rw [readFlags, Group.ofNat?_none out]))
  · exact congrArg Host.Outcome.next (requestFrame_reading_refused (by rw [readCounters, Group.ofNat?_none out]))
  · exact congrArg Host.Outcome.next (requestFrame_reading_plain (by rw [readBranch, Branch.ofNat?_toNat]; rfl))
  · exact congrArg Host.Outcome.next (requestFrame_reading_plain (by rw [readFlags, Group.ofNat?_toNat]; rfl))
  · exact congrArg Host.Outcome.next (requestFrame_reading_plain (by rw [readCounters, Group.ofNat?_toNat]; rfl))
  · have whole := congrArg BitVec.toNat (hi_append_lo v)
    rw [BitVec.toNat_append, ← Nat.shiftLeft_add_eq_or_of_lt (lo v).isLt, Nat.shiftLeft_eq] at whole
    omega

/-- Settles O20: the record found is the one the statement names, since the table is in ascending address. -/
theorem readNode : Obligations.ReadNode := by
  refine ⟨fun s tag key item selector ascending => ?_, rfl, rfl⟩
  intro u next outside found
  have found_iff : ∀ r, (if selector.getLsbD 1 then nextNode key.toNat u.nodes else findNode key.toNat u.nodes) = some r ↔
      found r := readNode_found_iff (by rw [State.arrived_nodes]; exact ascending) next key.toNat
  refine ⟨fun out => congrArg Host.Outcome.next (requestFrame_reading_refused (readNode_badIndex out)),
    fun inside bad => congrArg Host.Outcome.next (requestFrame_reading_refused (readNode_badValue inside bad)),
    fun inside valid => ⟨fun none_ => ?_, fun r hr => ?_⟩⟩
  · refine congrArg Host.Outcome.next (requestFrame_reading_refused (readNode_noEntry inside valid ?_))
    exact Option.eq_none_iff_forall_ne_some.2 fun r hr => none_ r ((found_iff r).1 hr)
  · refine (congrArg Host.Outcome.next
      (requestFrame_reading_with (readNode_record inside valid ((found_iff r).2 hr)))).trans ?_
    simp only [NodeRecord.valuePart, NodeRecord.recordPart, NodeRecord.lastShape, List.append_assoc]
    cases r.lastValue <;> rfl

/-- Settles O21: the item before the selector, and the bank by the selector. -/
theorem readSchedAndQueue : Obligations.ReadSchedAndQueue := by
  intro s tag key item selector u
  refine ⟨fun out => ⟨?_, ?_⟩, fun b hkey => ?_⟩
  · exact congrArg Host.Outcome.next (requestFrame_reading_refused (by rw [readSched, Branch.ofNat?_none out]))
  · exact congrArg Host.Outcome.next (requestFrame_reading_refused (by rw [readQueue, Branch.ofNat?_none out]))
  · have hb : Branch.ofNat? key.toNat = some b := by rw [hkey, Branch.ofNat?_toNat]
    refine ⟨fun out => ?_, fun fits bad => ?_, fun fits valid => ?_, fun zero header => ?_, fun out => ?_,
      fun fits bad => ?_, fun fits zero => ⟨fun short => ?_, fun c hc => ?_⟩⟩
    · exact congrArg Host.Outcome.next (requestFrame_reading_refused (readSched_badIndex hb out))
    · exact congrArg Host.Outcome.next (requestFrame_reading_refused (readSched_badValue hb fits bad))
    · refine (congrArg Host.Outcome.next (requestFrame_reading_with (readSched_entry hb fits valid))).trans ?_
      change Host.Outcome.next (u.answered tag .ok (SlotEntry.data _)) = _
      simp only [SlotEntry.data]
      rfl
    · exact congrArg Host.Outcome.next (requestFrame_reading_with (readSched_header hb zero header))
    · exact congrArg Host.Outcome.next (requestFrame_reading_refused (readQueue_badIndex hb out))
    · exact congrArg Host.Outcome.next (requestFrame_reading_refused (readQueue_badValue hb fits bad))
    · exact congrArg Host.Outcome.next (requestFrame_reading_refused (readQueue_noEntry hb fits zero short))
    · exact congrArg Host.Outcome.next (requestFrame_reading_with (readQueue_command hb fits zero hc))

/-- Settles O23: an answer is a step of the Delivery Unit but for the tag and the dropped responses. -/
theorem readsAndDeliveryFrame : Obligations.ReadsAndDeliveryFrame := by
  refine ⟨fun s t tag key item selector c hc h => ?_, fun c s t next payload hc h => ?_⟩
  · obtain ⟨r, hr⟩ := exec_read_answered hc s
    cases hr.symm.trans h
    have arrival := deliveryStep_arrived s
    obtain ⟨d, answer, flags⟩ := s.arrived.answered_step tag r.status r.data
    have rx := answer.rx.trans arrival.rx
    have enables := fun g => (answer.enables g).trans (arrival.enables g)
    exact ⟨answer.nodes.trans arrival.nodes, answer.branches.trans arrival.branches,
      answer.credits.trans arrival.credits, answer.strap.trans arrival.strap, answer.trunkRate.trans arrival.trunkRate,
      answer.window.trans arrival.window, answer.timeout.trans arrival.timeout,
      answer.failLimit.trans arrival.failLimit, answer.droppedReports.trans arrival.droppedReports,
      answer.relaysDropped.trans arrival.relaysDropped, answer.cause.trans arrival.cause,
      answer.lastNode.trans arrival.lastNode, enables .device,
      fun b => ⟨(flags b).trans (State.recover_branchFlags _ b), enables (.branch b)⟩,
      congrArg (·.checkFails) rx, congrArg (·.fragments) rx, congrArg (·.badAddresses) rx⟩
  · obtain ⟨receiver, good, step⟩ := exec_delivery_step hc h
    exact ⟨step.nodes, step.branches, step.credits, step.strap, step.trunkRate, step.muTag, step.window, step.timeout,
      step.failLimit, step.droppedReports, step.relaysDropped, step.droppedResponses,
      congrArg (·.checkFails) step.rx, congrArg (·.fragments) step.rx, congrArg (·.badAddresses) step.rx, step.cause,
      step.lastNode, step.enables⟩

end Sys2Proof.Reads
end

section
/-! PROOFS. The writes: the walk of the field items and the judgement of the form, and what a WRITE of DEVICE, BRANCH
and SCHED does (R42, R44, R45, R159, R165 to R167, R189, R192). -/
namespace Sys2Proof.Machine

/-! ### The walk of the field items -/

/-- A field item as a payload carries it: its code is a byte, and its value has the width of the code (R192). -/
def FieldItem.Fits (i : FieldItem) : Prop :=
  i.code < 256 ∧
    ((∃ k, fieldWidth i.code = some (.bytes k) ∧ i.value.length = k) ∨
      (fieldWidth i.code = some .counted ∧ ∃ len rest, i.value = len :: rest ∧ rest.length = len.toNat))

/-- The bytes of field items, one after another. -/
def itemBytes (items : List FieldItem) : List Byte := items.flatMap fun i => BitVec.ofNat 8 i.code :: i.value

section
variable {code : Byte} {rest : List Byte} {fuel k : Nat}

theorem walkItems_unlisted (h : fieldWidth code.toNat = none) :
    walkItems (fuel + 1) (code :: rest) = some { items := [], unlisted := true } := by
  simp only [walkItems, h]

theorem walkItems_bytes (h : fieldWidth code.toNat = some (.bytes k)) :
    walkItems (fuel + 1) (code :: rest) = if rest.length < k then none
      else (walkItems fuel (rest.drop k)).map fun w =>
        { w with items := { code := code.toNat, value := rest.take k } :: w.items } := by
  simp only [walkItems, h]

theorem walkItems_counted_nil (h : fieldWidth code.toNat = some .counted) :
    walkItems (fuel + 1) [code] = none := by
  simp only [walkItems, h]

theorem walkItems_counted_cons {len : Byte} (h : fieldWidth code.toNat = some .counted) :
    walkItems (fuel + 1) (code :: len :: rest) = if (len :: rest).length < len.toNat + 1 then none
      else (walkItems fuel ((len :: rest).drop (len.toNat + 1))).map fun w =>
        { w with items := { code := code.toNat, value := (len :: rest).take (len.toNat + 1) } :: w.items } := by
  simp only [walkItems, h]

/-- The walk takes one whole item and goes on behind it (R192). -/
theorem walkItems_item {i : FieldItem} (fits : i.Fits) (fuel : Nat) (tail : List Byte) :
    walkItems (fuel + 1) (BitVec.ofNat 8 i.code :: (i.value ++ tail)) =
      (walkItems fuel tail).map fun w => { w with items := i :: w.items } := by
  obtain ⟨byte, width⟩ := fits
  have code : (BitVec.ofNat 8 i.code).toNat = i.code := by rw [BitVec.toNat_ofNat, Nat.mod_eq_of_lt byte]
  have short : ¬ (i.value ++ tail).length < i.value.length := by rw [List.length_append]; omega
  rcases width with ⟨k, hk, rfl⟩ | ⟨hk, len, rest, hvalue, hlen⟩
  · rw [walkItems_bytes (by rw [code, hk]), if_neg short, List.drop_left, List.take_left, code]
  · have count : i.value.length = len.toNat + 1 := by rw [hvalue, List.length_cons, hlen]
    have split : i.value ++ tail = len :: (rest ++ tail) := by rw [hvalue, List.cons_append]
    rw [split, walkItems_counted_cons (by rw [code, hk]), ← split, ← count, if_neg short, List.drop_left,
      List.take_left, code]

/-- The walk takes every item of a row of whole items (R192). -/
theorem walkItems_itemBytes {items : List FieldItem} (fits : ∀ i ∈ items, i.Fits) (fuel : Nat) (tail : List Byte) :
    walkItems (fuel + items.length) (itemBytes items ++ tail) =
      (walkItems fuel tail).map fun w => { w with items := items ++ w.items } := by
  induction items with
  | nil => exact (congrFun Option.map_id_fun' _).symm
  | cons i items ih =>
    have bytes : itemBytes (i :: items) ++ tail = BitVec.ofNat 8 i.code :: (i.value ++ (itemBytes items ++ tail)) := by
      simp [itemBytes]
    rw [bytes, List.length_cons, ← Nat.add_assoc, walkItems_item (fits i List.mem_cons_self),
      ih fun j hj => fits j (List.mem_cons_of_mem _ hj), Option.map_map]
    rfl

theorem length_le_itemBytes (items : List FieldItem) : items.length ≤ (itemBytes items).length := by
  induction items with
  | nil => exact Nat.le_refl 0
  | cons i items ih =>
    have bytes : (itemBytes (i :: items)).length = i.value.length + 1 + (itemBytes items).length := by
      simp only [itemBytes, List.flatMap_cons, List.length_append, List.length_cons]
    rw [bytes, List.length_cons]
    omega

/-- A walk over whole items and a tail is the walk over the tail, with the items put before it. -/
theorem walk_itemBytes {items : List FieldItem} (fits : ∀ i ∈ items, i.Fits) (tail : List Byte) :
    ∃ fuel, tail.length ≤ fuel ∧ walk (itemBytes items ++ tail) =
      (walkItems fuel tail).map fun w => { w with items := items ++ w.items } := by
  have := length_le_itemBytes items
  refine ⟨(itemBytes items).length - items.length + tail.length, by omega, ?_⟩
  rw [walk, List.length_append, ← walkItems_itemBytes fits]
  congr 1
  omega

end

/-! ### The form of a write -/

section
variable {s : State} {tag key item : Byte} {fields : List Byte} {w : Walk} {t : Table}

theorem writeTable_badRequest (h : walk fields = none) (t : Table) (key item : Byte) (s : State) :
    writeTable t key item fields s = (s, .refused .badRequest) := by
  simp only [writeTable, h]

theorem writeTable_readOnly (h : walk fields = some w) (refuses : t.refusesWrite w = true) (key item : Byte)
    (s : State) : writeTable t key item fields s = (s, .refused .readOnly) := by
  simp only [writeTable, h, if_pos refuses]

theorem Table.refusesWrite_of_readOnly {i : FieldItem} (hi : i ∈ w.items) (h : t.readOnlyCode i.code = true) :
    t.refusesWrite w = true := by
  rw [Table.refusesWrite, Bool.or_eq_true, List.any_eq_true]
  exact .inr ⟨i, hi, h⟩

theorem Table.not_refusesWrite (writable : t.writable = true) (h : ∀ i ∈ w.items, t.readOnlyCode i.code = false) :
    ¬ t.refusesWrite w = true := by
  rw [Table.refusesWrite, Bool.or_eq_true, List.any_eq_true]
  rintro (k | ⟨i, hi, k⟩)
  · rw [writable] at k; cases k
  · rw [h i hi] at k; cases k

/-! ### WRITE DEVICE -/

theorem exec_writeDevice (hw : walk fields = some w) (named : ∀ i ∈ w.items, ¬ (0x48 ≤ i.code ∧ i.code ≤ 0x4D)) :
    exec (.writeDevice tag key item fields) s = .next (s.requestFrame tag (writeDevice key item w)) := by
  have judged : writeTable .device key item fields = writeDevice key item w := by
    funext u
    simp only [writeTable, hw, if_neg (Table.not_refusesWrite (t := .device) rfl fun i hi => decide_eq_false (named i hi))]
  rw [← judged]
  rfl

theorem writeDevice_badIndex (h : key ≠ 0 ∨ item ≠ 0) : writeDevice key item w s = (s, .refused .badIndex) := if_pos h

theorem writeDevice_badValue (h : w.gather DeviceWrite.empty DeviceWrite.add = none) :
    writeDevice 0 0 w s = (s, .refused .badValue) := by
  rw [writeDevice, if_neg (by decide), h]

theorem writeDevice_done {d : DeviceWrite} (h : w.gather DeviceWrite.empty DeviceWrite.add = some d) :
    writeDevice 0 0 w s = (s.applyDevice d, .done) := by
  rw [writeDevice, if_neg (by decide), h]

/-! ### WRITE BRANCH -/

theorem exec_writeBranch (hw : walk fields = some w) (named : ∀ i ∈ w.items, ¬ (0x38 ≤ i.code ∧ i.code ≤ 0x3E)) :
    exec (.writeBranch tag key item fields) s = .next (s.requestFrame tag (writeBranch key item w)) := by
  have judged : writeTable .branch key item fields = writeBranch key item w := by
    funext u
    simp only [writeTable, hw, if_neg (Table.not_refusesWrite (t := .branch) rfl fun i hi => decide_eq_false (named i hi))]
  rw [← judged]
  rfl

theorem writeBranch_badIndex (h : 3 < key.toNat ∨ item ≠ 0) : writeBranch key item w s = (s, .refused .badIndex) := by
  rw [writeBranch]
  rcases h with h | h
  · rw [Branch.ofNat?_none h]
  · cases Branch.ofNat? key.toNat with
    | none => rfl
    | some b => exact if_pos h

section
variable {b : Branch} (hb : Branch.ofNat? key.toNat = some b)
include hb

theorem writeBranch_badValue (h : w.gather BranchWrite.empty BranchWrite.add = none) :
    writeBranch key 0 w s = (s, .refused .badValue) := by
  simp only [writeBranch, hb, if_neg (not_not_intro rfl), h]

theorem writeBranch_done {d : BranchWrite} (h : w.gather BranchWrite.empty BranchWrite.add = some d) :
    writeBranch key 0 w s = (s.applyBranch b d, .done) := by
  simp only [writeBranch, hb, if_neg (not_not_intro rfl), h]

end

section
variable {b : Branch} {d : BranchWrite}

/-- The part once the settings of a WRITE BRANCH are written, before their effects (log 13). -/
def State.settingsWritten (s : State) (b : Branch) (d : BranchWrite) : State := s.onBr b fun B => B.settings d

theorem State.settingsWritten_br (s : State) (b : Branch) (d : BranchWrite) :
    (s.settingsWritten b d).br b = (s.br b).settings d := State.onBr_br_same ..

/-- A change of the supervisor after the settings, in one step. -/
theorem State.settingsWritten_onSup (s : State) (b : Branch) (d : BranchWrite) (f : Supervisor → Supervisor) :
    (s.settingsWritten b d).onSup b f =
      s.onBr b fun B => { B.settings d with sup := f (B.settings d).sup } := State.onBr_onBr ..

theorem State.applyBranch_disable (was : (s.br b).sup.enabled = true)
    (now : ((s.br b).settings d).sup.enabled = false) :
    s.applyBranch b d = (s.settingsWritten b d).disableSupervision b := by
  simp only [State.applyBranch, State.onBr_br_same, was, now, State.settingsWritten]

theorem State.applyBranch_enable (was : (s.br b).sup.enabled = false)
    (now : ((s.br b).settings d).sup.enabled = true) :
    s.applyBranch b d = (s.settingsWritten b d).enableSupervision b := by
  simp only [State.applyBranch, State.onBr_br_same, was, now, State.settingsWritten]

theorem State.applyBranch_compare (was : (s.br b).sup.enabled = true)
    (now : ((s.br b).settings d).sup.enabled = true) :
    s.applyBranch b d = (s.settingsWritten b d).compare b (s.br b).above := by
  simp only [State.applyBranch, State.onBr_br_same, was, now, State.settingsWritten]

theorem State.applyBranch_unsupervised (was : (s.br b).sup.enabled = false)
    (now : ((s.br b).settings d).sup.enabled = false) : s.applyBranch b d = s.settingsWritten b d := by
  simp only [State.applyBranch, State.onBr_br_same, was, now, State.settingsWritten]

end

section
variable {b : Branch}

theorem State.disableSupervision_down (h : (s.br b).sup.state = .restorePending ∨ (s.br b).sup.state = .fault) :
    s.disableSupervision b = s.reachNormal b := by
  rcases h with h | h <;> simp only [State.disableSupervision, h]

theorem State.disableSupervision_lowPending (h : (s.br b).sup.state = .lowPending) :
    s.disableSupervision b = s.onSup b fun v => { v with state := .normal, qualify := none } := by
  simp only [State.disableSupervision, h]

theorem State.disableSupervision_settled (h : (s.br b).sup.state = .disabled ∨ (s.br b).sup.state = .normal) :
    s.disableSupervision b = s := by
  rcases h with h | h <;> simp only [State.disableSupervision, h]

theorem BranchState.above_iff {B : BranchState} : B.above = true ↔ B.sup.level < B.supply.val := decide_eq_true_iff

theorem BranchState.not_above_iff {B : BranchState} : B.above = false ↔ B.supply.val ≤ B.sup.level :=
  decide_eq_false_iff_not.trans Nat.not_lt

theorem State.enableSupervision_below (state : (s.br b).sup.state = .normal) (below : (s.br b).above = false) :
    s.enableSupervision b = s.onSup b fun v => { v with state := .lowPending, qualify := some 0 } :=
  if_pos ⟨state, by rw [below]; rfl⟩

theorem State.enableSupervision_kept (h : (s.br b).sup.state ≠ .normal ∨ (s.br b).above = true) :
    s.enableSupervision b = s := by
  refine if_neg ?_
  rintro ⟨state, below⟩
  rcases h with h | h
  · exact h state
  · rw [h] at below; cases below

theorem State.compare_rise (enabled : (s.br b).sup.enabled = true) (above : (s.br b).above = true) :
    s.compare b false = s.takeRise b := by
  simp only [State.compare, enabled, above, if_true]

theorem State.compare_fall (enabled : (s.br b).sup.enabled = true) (below : (s.br b).above = false) :
    s.compare b true = s.takeFall b := by
  simp only [State.compare, enabled, below, if_true]

theorem State.compare_same (s : State) (b : Branch) : s.compare b (s.br b).above = s := by
  simp only [State.compare]
  cases (s.br b).above <;> simp only [ite_self]

end

/-! ### WRITE SCHED -/

theorem exec_writeSchedEntry (hw : walk fields = some w) :
    exec (.writeSchedEntry tag key item fields) s = .next (s.requestFrame tag (writeSched key item w)) := by
  have judged : writeTable .sched key item fields = writeSched key item w := by
    funext u
    simp only [writeTable, hw, if_neg (Table.not_refusesWrite (t := .sched) rfl fun i hi => rfl)]
  rw [← judged]
  rfl

theorem exec_writeSchedHeader (hw : walk fields = some w) :
    exec (.writeSchedHeader tag key fields) s = .next (s.requestFrame tag (writeSched key headerItem w)) :=
  exec_writeSchedEntry hw

theorem writeSched_badBranch (h : 3 < key.toNat) : writeSched key item w s = (s, .refused .badIndex) := by
  rw [writeSched, Branch.ofNat?_none h]

/-- The standby bank (R44). -/
def BranchState.standbyBank (B : BranchState) : Bank := if B.activeBank = .a then B.bankB else B.bankA

/-- A branch with its standby bank replaced (R44). -/
def BranchState.withStandby (B : BranchState) (k : Bank) : BranchState :=
  if B.activeBank = .a then { B with bankB := k } else { B with bankA := k }

theorem BranchState.onStandby_eq (B : BranchState) (f : Bank → Bank) :
    B.onStandby f = B.withStandby (f B.standbyBank) := by
  cases h : B.activeBank <;> simp [BranchState.onStandby, BranchState.withStandby, BranchState.standbyBank, h]

section
variable {b : Branch} (hb : Branch.ofNat? key.toNat = some b)
include hb

theorem writeSched_busy (h : (s.br b).swapPending = true) : writeSched key item w s = (s, .refused .busy) := by
  simp only [writeSched, hb, if_pos h]

section
variable (free : (s.br b).swapPending = false)
include free

theorem writeSched_badItem (high : 32 ≤ item.toNat) (entry : item ≠ 0xFF) :
    writeSched key item w s = (s, .refused .badIndex) := by
  simp only [writeSched, hb, free, Bool.false_eq_true, if_false]
  rw [if_neg (show item ≠ headerItem from entry), if_pos (show 31 < item.toNat from high)]

theorem writeSched_entry_badValue (low : item.toNat < 32)
    (h : (w.gather EntryWrite.empty EntryWrite.add).bind EntryWrite.entry = none) :
    writeSched key item w s = (s, .refused .badValue) := by
  have entry : item ≠ headerItem := by rintro rfl; exact absurd low (by decide)
  simp only [writeSched, hb, free, Bool.false_eq_true, if_false, if_neg entry,
    if_neg (Nat.not_lt.2 (Nat.le_of_lt_succ low)), h]

theorem writeSched_entry_done {e : SlotEntry} (low : item.toNat < 32)
    (h : (w.gather EntryWrite.empty EntryWrite.add).bind EntryWrite.entry = some e) :
    writeSched key item w s = (s.onBr b fun B => B.onStandby fun k => k.setEntry item.toNat e, .done) := by
  have entry : item ≠ headerItem := by rintro rfl; exact absurd low (by decide)
  simp only [writeSched, hb, free, Bool.false_eq_true, if_false, if_neg entry,
    if_neg (Nat.not_lt.2 (Nat.le_of_lt_succ low)), h]

theorem writeSched_header_badValue (h : w.gather HeaderWrite.empty HeaderWrite.add = none) :
    writeSched key headerItem w s = (s, .refused .badValue) := by
  simp only [writeSched, hb, free, Bool.false_eq_true, if_false, if_true, h]

theorem writeSched_header_done {d : HeaderWrite} (h : w.gather HeaderWrite.empty HeaderWrite.add = some d) :
    writeSched key headerItem w s = (s.onBr b fun B => B.onStandby fun k => k.setHeader d, .done) := by
  simp only [writeSched, hb, free, Bool.false_eq_true, if_false, if_true, h]

end
end
end
end Sys2Proof.Machine

namespace Sys2Proof.Writes
open Sys2Proof.Machine

/-- Settles O24: the walk over whole items and what follows them, and the form before anything else. -/
theorem writeFormJudged : Obligations.WriteFormJudged := by
  refine ⟨⟨fun code => ?_, fun code => ?_, fun code => ?_, fun items fits => ?_⟩, fun s tag key item fields t => ?_⟩
  · rw [fieldWidth]
    split_ifs <;> simp_all
  · rw [fieldWidth]
    split_ifs <;> simp_all
  · rw [fieldWidth]
    split_ifs <;> simp_all
    omega
  · refine ⟨?_, fun code rest => ⟨fun unlisted => ?_, fun k width short => ?_, fun counted short => ?_⟩⟩
    · obtain ⟨fuel, -, h⟩ := walk_itemBytes fits []
      rw [List.append_nil] at h
      exact h.trans (by cases fuel <;> simp [walkItems])
    all_goals
      obtain ⟨_ | fuel, enough, h⟩ := walk_itemBytes fits (code :: rest)
      · cases enough
      refine h.trans ?_
    · rw [walkItems_unlisted unlisted]
      simp
    · rw [walkItems_bytes width, if_pos short]
      rfl
    · rcases short with rfl | ⟨len, short, rfl, ends⟩
      · rw [walkItems_counted_nil counted]
        rfl
      · rw [walkItems_counted_cons counted, if_pos (by rw [List.length_cons]; omega)]
        rfl
  · refine ⟨fun bad c hc => ?_, fun w hw => ⟨?_, fun ⟨i, hi, low⟩ => ?_, fun ⟨i, hi, low⟩ => ?_, fun ⟨i, hi, low⟩ => ?_⟩⟩
    · have refused : ∀ t key item, Host.Outcome.next (s.requestFrame tag (writeTable t key item fields)) =
          (Host.Outcome.next (s.arrived.answered tag .badRequest []) : Host.Outcome State Fault Refusal) :=
        fun t key item => congrArg Host.Outcome.next (State.requestFrame_refused (writeTable_badRequest bad t key item _))
      simp only [List.mem_cons, List.not_mem_nil, or_false] at hc
      rcases hc with rfl | rfl | rfl | rfl | rfl | rfl <;> exact refused ..
    · refine congrArg Host.Outcome.next (State.requestFrame_refused (writeTable_readOnly hw ?_ key item _))
      cases t <;> rfl
    · exact congrArg Host.Outcome.next (State.requestFrame_refused
        (writeTable_readOnly hw (Table.refusesWrite_of_readOnly (t := .device) hi (decide_eq_true low)) key item _))
    · exact congrArg Host.Outcome.next (State.requestFrame_refused
        (writeTable_readOnly hw (Table.refusesWrite_of_readOnly (t := .branch) hi (decide_eq_true low)) key item _))
    · exact congrArg Host.Outcome.next (State.requestFrame_refused
        (writeTable_readOnly hw (Table.refusesWrite_of_readOnly (t := .node) hi (decide_eq_true low)) key item _))

/-- Settles O26: the key and item, the values, and the write itself. -/
theorem writeDevice : Obligations.WriteDevice := by
  intro s tag key item fields w hw named u v
  rw [exec_writeDevice hw named]
  refine ⟨fun out => congrArg Host.Outcome.next (State.requestFrame_refused (writeDevice_badIndex out)), ?_⟩
  rintro rfl rfl
  exact ⟨fun bad => congrArg Host.Outcome.next (State.requestFrame_refused (writeDevice_badValue bad)),
    fun d hd => congrArg Host.Outcome.next (State.requestFrame_done (writeDevice_done hd))⟩

/-- Settles O27: the settings first, and then the effect by supervision before and after. -/
theorem writeBranch : Obligations.WriteBranch := by
  intro s tag key item fields w hw named u
  rw [exec_writeBranch hw named]
  refine ⟨fun out => congrArg Host.Outcome.next (State.requestFrame_refused (writeBranch_badIndex out)), ?_⟩
  rintro b hkey rfl
  have hb : Branch.ofNat? key.toNat = some b := by rw [hkey, Branch.ofNat?_toNat]
  refine ⟨fun bad => congrArg Host.Outcome.next (State.requestFrame_refused (writeBranch_badValue hb bad)), fun d hd => ?_⟩
  intro B C v answered low
  have hv : v = (s.inHand tag).settingsWritten b d := rfl
  have hC : v.br b = C := State.settingsWritten_br ..
  have applied : ∀ {t}, (s.inHand tag).applyBranch b d = t → answered t := fun ht =>
    congrArg Host.Outcome.next (State.requestFrame_done ((writeBranch_done hb hd).trans (by rw [ht])))
  have changed : ∀ f : Supervisor → Supervisor, v.onSup b f =
      { v with branches := u.branches.set b { C with sup := f C.sup } } := fun f =>
    State.settingsWritten_onSup (s.inHand tag) b d f
  have state : (v.br b).sup.state = B.sup.state := by rw [hC]
  have enabled : (v.br b).sup.enabled = C.sup.enabled := by rw [hC]
  refine ⟨fun was now => ?_, fun was now => ?_, fun was now => ?_, fun was now =>
    applied (State.applyBranch_unsupervised was now)⟩
  · have effect := State.applyBranch_disable (s := s.inHand tag) (b := b) (d := d) was now
    rw [← hv] at effect
    refine ⟨fun h => applied (effect.trans (State.disableSupervision_down (by rwa [state]))), fun h => ?_,
      fun h => applied (effect.trans (State.disableSupervision_settled (by rwa [state])))⟩
    exact applied (effect.trans ((State.disableSupervision_lowPending (by rwa [state])).trans (changed _)))
  · have effect := State.applyBranch_enable (s := s.inHand tag) (b := b) (d := d) was now
    rw [← hv] at effect
    refine ⟨fun normal below => ?_, fun h => applied (effect.trans (State.enableSupervision_kept ?_))⟩
    · exact applied (effect.trans ((State.enableSupervision_below (by rwa [state])
        (by rw [hC]; exact BranchState.not_above_iff.2 below)).trans (changed _)))
    · rw [state, hC]
      exact h.imp_right BranchState.above_iff.2
  · have effect := State.applyBranch_compare (s := s.inHand tag) (b := b) (d := d) was now
    rw [← hv] at effect
    have reported : ((s.inHand tag).br b).above = B.above := rfl
    rw [reported] at effect
    refine ⟨fun below above => applied (effect.trans ?_), fun above below => applied (effect.trans ?_),
      fun same => applied (effect.trans ?_)⟩
    · rw [BranchState.not_above_iff.2 below]
      exact State.compare_rise (enabled.trans now) (by rw [hC]; exact BranchState.above_iff.2 above)
    · rw [BranchState.above_iff.2 above]
      exact State.compare_fall (enabled.trans now) (by rw [hC]; exact BranchState.not_above_iff.2 below)
    · have kept : B.above = (v.br b).above := by
        rw [hC, Bool.eq_iff_iff, BranchState.above_iff, BranchState.above_iff]
        exact same
      rw [kept]
      exact v.compare_same b

/-- Settles O29: the branch, the pending swap, the item and the values, and the standby bank alone. -/
theorem writeSched : Obligations.WriteSched := by
  intro s tag key item fields w hw u v
  rw [exec_writeSchedEntry hw, exec_writeSchedHeader hw]
  refine ⟨fun out => ⟨congrArg Host.Outcome.next (State.requestFrame_refused (writeSched_badBranch out)),
    congrArg Host.Outcome.next (State.requestFrame_refused (writeSched_badBranch out))⟩, fun b hkey => ?_⟩
  have hb : Branch.ofNat? key.toNat = some b := by rw [hkey, Branch.ofNat?_toNat]
  intro B standby old
  refine ⟨fun busy => ⟨congrArg Host.Outcome.next (State.requestFrame_refused (writeSched_busy hb busy)),
    congrArg Host.Outcome.next (State.requestFrame_refused (writeSched_busy hb busy))⟩, fun free => ⟨fun high entry =>
    congrArg Host.Outcome.next (State.requestFrame_refused (writeSched_badItem hb free high entry)), fun low =>
    ⟨fun bad => congrArg Host.Outcome.next (State.requestFrame_refused (writeSched_entry_badValue hb free low bad)),
      fun e he => ?_⟩, fun bad =>
    congrArg Host.Outcome.next (State.requestFrame_refused (writeSched_header_badValue hb free bad)), fun d hd => ?_⟩⟩
  · refine congrArg Host.Outcome.next (State.requestFrame_done
      ((writeSched_entry_done (s := s.inHand tag) hb free low he).trans ?_))
    have inside : ∀ k : Bank, k.entries.setIfInBounds item.toNat e = k.entries.set item.toNat e low := fun k => by
      simp [Vector.setIfInBounds, Vector.set, Array.setIfInBounds, low]
    simp only [State.onBr, BranchState.onStandby_eq, Bank.setEntry, inside]
    rfl
  · refine congrArg Host.Outcome.next (State.requestFrame_done
      ((writeSched_header_done (s := s.inHand tag) hb free hd).trans ?_))
    simp only [State.onBr, BranchState.onStandby_eq, Bank.setHeader]
    rfl

end Sys2Proof.Writes
end

section
/-! PROOFS. What a field item comes to in a write of its table (R18, R41, R42, R165 to R167, R192). -/
namespace Sys2Proof.Machine

/-! ### A field named once, and the ranges -/

section
variable {α β : Type} {held new : Option α} {f : Option α → β}

theorem once_free (h : held = none) : (once held new).map f = new.map fun x => f (some x) := by
  rw [h]
  cases new <;> rfl

theorem once_held (h : held ≠ none) : (once held new).map f = none := by
  obtain ⟨x, rfl⟩ := Option.ne_none_iff_exists'.1 h
  cases new <;> rfl

end

theorem beNat_one (v : Byte) : beNat [v] = v.toNat := by
  simp [beNat]

theorem beNat_two (h l : Byte) : beNat [h, l] = 256 * h.toNat + l.toNat := by
  simp [beNat]

section
variable {β : Type} {n m low high : Nat} {v : Byte}

/-- A number in its range, named once. -/
theorem once_inRange {held : Option Nat} {f : Option Nat → β} {p : Prop} [Decidable p] (h : held = none) (hn : n = m)
    (hp : low ≤ m ∧ m ≤ high ↔ p) :
    (once held (inRange low high n)).map f = if p then some (f (some m)) else none := by
  rw [once_free h, hn, inRange, if_congr hp rfl rfl]
  split <;> rfl

theorem once_number {held : Option Nat} {f : Option Nat → β} (h : held = none) (hn : n = m) :
    (once held (some n)).map f = some (f (some m)) := by
  rw [once_free h, hn]
  rfl

/-- A yes/no value, named once. -/
theorem once_boolValue {held : Option Bool} {f : Option Bool → β} (h : held = none) (hn : n = v.toNat) :
    (once held (boolValue n)).map f =
      if v = 0 then some (f (some false)) else if v = 1 then some (f (some true)) else none := by
  rw [once_free h, hn]
  by_cases h0 : v = 0
  · rw [if_pos h0, h0]; rfl
  · by_cases h1 : v = 1
    · rw [if_neg h0, if_pos h1, h1]; rfl
    · have other : boolValue v.toNat = none := by
        unfold boolValue
        split
        · exact absurd (BitVec.eq_of_toNat_eq ‹_›) h0
        · exact absurd (BitVec.eq_of_toNat_eq ‹_›) h1
        · rfl
      rw [if_neg h0, if_neg h1, other]
      rfl

/-- A report mode, named once. -/
theorem once_reportMode {held : Option ReportMode} {f : Option ReportMode → β} (h : held = none) (hn : n = v.toNat) :
    (once held (ReportMode.ofNat? n)).map f = if v = 0 then some (f (some .every))
      else if v = 1 then some (f (some .onChange)) else if v = 2 then some (f (some .periodic)) else none := by
  rw [once_free h, hn]
  by_cases h0 : v = 0
  · rw [if_pos h0, h0]; rfl
  · by_cases h1 : v = 1
    · rw [if_neg h0, if_pos h1, h1]; rfl
    · by_cases h2 : v = 2
      · rw [if_neg h0, if_neg h1, if_pos h2, h2]; rfl
      · have other : ReportMode.ofNat? v.toNat = none := by
          unfold ReportMode.ofNat?
          split
          · exact absurd (BitVec.eq_of_toNat_eq ‹_›) h0
          · exact absurd (BitVec.eq_of_toNat_eq ‹_›) h1
          · exact absurd (BitVec.eq_of_toNat_eq ‹_›) h2
          · rfl
        rw [if_neg h0, if_neg h1, if_neg h2, other]
        rfl

/-- A set of flags of a group, named once. -/
theorem once_flagSet {held : Option Byte} {f : Option Byte → β} {g : Group} {others : Byte} (h : held = none)
    (hn : n = v.toNat) (hg : ~~~g.flagSet = others) :
    (once held (flagSetValue g (byte n))).map f = if v &&& others = 0 then some (f (some v)) else none := by
  have whole : byte v.toNat = v := by simp [byte]
  rw [once_free h, hn, whole, flagSetValue, hg]
  split <;> rfl

end

theorem byte_nonzero_iff (v : Byte) : 1 ≤ v.toNat ∧ v.toNat ≤ 255 ↔ v ≠ 0 := by bv_omega
theorem byte_upTo_iff {v : Byte} {n : Nat} : 0 ≤ v.toNat ∧ v.toNat ≤ n ↔ v.toNat ≤ n := by omega
theorem byte_from_iff {v : Byte} {n : Nat} : n ≤ v.toNat ∧ v.toNat ≤ 255 ↔ n ≤ v.toNat := by have := v.isLt; omega

/-! ### Codes of other tables -/

section
variable {code : Nat} {value : List Byte}

theorem NodeWrite.add_other (w : NodeWrite) (h : code = 0 ∨ 9 ≤ code) : w.add ⟨code, value⟩ = none := by
  simp only [NodeWrite.add]
  split
  case h_9 => rfl
  all_goals omega

theorem BranchWrite.add_other (w : BranchWrite) (h : code < 0x30 ∨ 0x36 < code) : w.add ⟨code, value⟩ = none := by
  simp only [BranchWrite.add]
  split
  case h_8 => rfl
  all_goals omega

theorem DeviceWrite.add_other (w : DeviceWrite) (h : code < 0x40 ∨ 0x47 < code) : w.add ⟨code, value⟩ = none := by
  simp only [DeviceWrite.add]
  split
  case h_9 => rfl
  all_goals omega

theorem HeaderWrite.add_other (w : HeaderWrite) (h : code ≠ 0x28) (k : code ≠ 0x29) : w.add ⟨code, value⟩ = none := by
  simp only [HeaderWrite.add]

theorem EntryWrite.add_other (w : EntryWrite) (h : code < 0x20 ∨ 0x24 < code) : w.add ⟨code, value⟩ = none := by
  simp only [EntryWrite.add]
  split
  case h_6 => rfl
  all_goals omega

end

/-! ### The entry of an entry write -/

/-- The three forms an entry write can have (R42). -/
theorem EntryWrite.entry_forms {w : EntryWrite} {e : SlotEntry} (h : w.entry = some e) :
    (∃ n wd r, w = ⟨some 1, some n, some wd, some r, none⟩ ∧ e = .poll n wd r) ∨
      (w = ⟨some 2, none, none, none, none⟩ ∧ e = .sync) ∨
      ∃ n, w = ⟨some 3, none, none, none, some n⟩ ∧ e = .gap n := by
  obtain ⟨kind, node, window, retries, gap⟩ := w
  simp only [EntryWrite.entry] at h
  split at h
  · split at h
    · cases h; exact .inl ⟨_, _, _, rfl, rfl⟩
    · cases h
  · cases h; exact .inr (.inl ⟨rfl, rfl⟩)
  · split at h
    · cases h; exact .inr (.inr ⟨_, rfl, rfl⟩)
    · cases h
  · cases h

theorem EntryWrite.entry_poll_iff (n wd r : Nat) :
    EntryWrite.entry ⟨some 1, some n, some wd, some r, none⟩ = some (.poll n wd r) ↔
      1 ≤ n ∧ n ≤ 239 ∧ 2 ≤ wd ∧ wd ≤ 255 ∧ r ≤ 3 :=
  Option.ite_none_right_eq_some.trans (and_iff_left rfl)

theorem EntryWrite.entry_gap_iff (n : Nat) :
    EntryWrite.entry ⟨some 3, none, none, none, some n⟩ = some (.gap n) ↔ 1 ≤ n ∧ n ≤ 4095 :=
  Option.ite_none_right_eq_some.trans (and_iff_left rfl)

theorem Branch.ofNat?_eq_getElem? (n : Nat) : Branch.ofNat? n = [Branch.b0, .b1, .b2, .b3][n]? := by
  rcases n with _ | _ | _ | _ | n <;> rfl

theorem LineRate.ofNat?_eq_getElem? (n : Nat) :
    LineRate.ofNat? n = [LineRate.r9600, .r19200, .r38400, .r57600, .r115200][n]? := by
  rcases n with _ | _ | _ | _ | _ | n <;> rfl

end Sys2Proof.Machine

namespace Sys2Proof.FieldItems
open Sys2Proof.Machine

/-- Settles O25: each code's value by its range, a second naming refused, and a code of another table. -/
theorem fieldRanges : Obligations.FieldRanges := by
  refine ⟨⟨fun w v => ⟨fun h => ?_, fun h => once_boolValue h (beNat_one v), fun h => once_inRange h (beNat_one v) .rfl,
      fun h => once_inRange h (beNat_one v) (byte_nonzero_iff v), fun h => once_reportMode h (beNat_one v),
      fun h => once_inRange h (beNat_one v) (byte_nonzero_iff v), fun h => once_inRange h (beNat_one v) byte_upTo_iff,
      fun h => once_inRange h (beNat_one v) (byte_nonzero_iff v)⟩,
      fun w value => ⟨once_held, once_held, once_held, once_held, once_held, once_held, once_held, once_held,
        fun code => w.add_other⟩⟩,
    ⟨fun w v => ⟨fun h => ?_, fun h => once_boolValue h (beNat_one v),
      fun h => once_inRange h (beNat_one v) byte_upTo_iff, fun h => once_inRange h (beNat_one v) (byte_nonzero_iff v),
      fun h => once_inRange h (beNat_one v) (byte_nonzero_iff v), fun h => once_inRange h (beNat_one v) byte_from_iff,
      fun h => once_inRange h (beNat_one v) byte_upTo_iff⟩,
      fun w value => ⟨once_held, once_held, once_held, once_held, once_held, once_held, once_held,
        fun code => w.add_other⟩⟩,
    ⟨fun w v => ⟨fun h => once_inRange h (beNat_one v) .rfl, fun h => once_inRange h (beNat_one v) byte_from_iff,
      fun h => once_inRange h (beNat_one v) .rfl, fun b h => ?_,
      fun h => once_flagSet h (beNat_one v) Group.compl_flagSet_device⟩,
      fun w value => ⟨once_held, once_held, once_held, fun b h => ?_, once_held, fun code => w.add_other⟩⟩,
    ⟨fun w h l => ⟨fun free => once_inRange free (beNat_one l) byte_upTo_iff,
      fun free => once_inRange free (beNat_two h l) .rfl⟩,
      fun w value => ⟨once_held, once_held, fun code => w.add_other⟩⟩,
    ⟨fun w h l => ⟨fun free => once_number free (beNat_one l), fun free => once_number free (beNat_one l),
      fun free => once_number free (beNat_one l), fun free => once_number free (beNat_one l),
      fun free => once_number free (beNat_two h l)⟩,
      fun w value => ⟨once_held, once_held, once_held, once_held, once_held, fun code => w.add_other⟩⟩,
    ⟨EntryWrite.entry_poll_iff, rfl, EntryWrite.entry_gap_iff, fun w e => EntryWrite.entry_forms⟩,
    fun α start add items i => ⟨rfl, rfl, ?_⟩, rfl, rfl, rfl, rfl, rfl, Branch.ofNat?_eq_getElem?,
    LineRate.ofNat?_eq_getElem?, rfl⟩
  · rw [← beNat_one v]
    exact once_free h
  · rw [← beNat_one v]
    exact once_free h
  · cases b <;> exact once_flagSet h (beNat_one v) (Group.compl_flagSet_branch _)
  · cases b <;> exact once_held h
  · exact List.foldl_append

end Sys2Proof.FieldItems
end

section
/-! PROOFS. The node table as a map and a queue as a list, SET_MODE, and the requests at fault (R17, R68, R96, R102,
R103, R159, R173, R192, R193). -/
namespace Sys2Proof.Machine

/-! ### Tables and queues -/

section
variable {a b : Nat} {l : List NodeRecord}

theorem findNode_insertNode_other {r : NodeRecord} (h : b ≠ r.address) (l : List NodeRecord) :
    findNode b (insertNode r l) = findNode b l := by
  induction l with
  | nil => exact if_neg h.symm
  | cons q l ih =>
    rw [insertNode]
    split
    · exact if_neg h.symm
    · rw [findNode, findNode, ih]

theorem findNode_removeNode (ascending : l.Pairwise fun q r => q.address < r.address) (a b : Nat) :
    findNode b (removeNode a l) = if b = a then none else findNode b l := by
  split
  · rename_i h; rw [h, findNode_removeNode_same ascending]
  · rename_i h; exact findNode_removeNode_other h l

theorem findNode_insertNode (ascending : l.Pairwise fun q r => q.address < r.address) {r : NodeRecord}
    (free : findNode r.address l = none) (b : Nat) :
    findNode b (insertNode r l) = if b = r.address then some r else findNode b l := by
  split
  · rename_i h
    rw [h]
    exact findNode_of_mem (ascending_insertNode ascending free) (mem_insertNode.2 (.inl rfl))
  · rename_i h; exact findNode_insertNode_other h l

theorem findNode_eq_none {l : List NodeRecord} : findNode a l = none ↔ a ∉ l.map (·.address) := by
  rw [← findNode_isSome, Bool.not_eq_true, Option.isSome_eq_false_iff, Option.isNone_iff_eq_none]

theorem findNode_updateNode {f : NodeRecord → NodeRecord} (hf : ∀ r, (f r).address = r.address) (l : List NodeRecord)
    (a b : Nat) : findNode b (updateNode a f l) = if b = a then (findNode a l).map f else findNode b l := by
  split
  · rename_i h
    rw [h]
    cases found : findNode a l with
    | none =>
      have addresses : (updateNode a f l).map (·.address) = l.map (·.address) :=
        map_updateNode (·.address) fun r _ => hf r
      rw [findNode_eq_none, ← addresses] at found
      exact findNode_eq_none.2 found
    | some r => exact findNode_updateNode_same found ((hf r).trans (findNode_some found).2)
  · rename_i h; exact findNode_updateNode_other h fun r _ => hf r

end

/-- The oldest entry for a node is the first that names it (R68). -/
theorem takeFirst_first {pre post : List Command} {c : Command} (h : ∀ x ∈ pre, x.node ≠ c.node) :
    takeFirst c.node (pre ++ c :: post) = some (c, pre ++ post) := by
  induction pre with
  | nil => exact if_pos rfl
  | cons x pre ih =>
    rw [List.cons_append, takeFirst, if_neg (h x List.mem_cons_self), ih fun y hy => h y (List.mem_cons_of_mem _ hy)]
    rfl

theorem takeFirst_none {node : Nat} {l : List Command} (h : ∀ x ∈ l, x.node ≠ node) : takeFirst node l = none := by
  induction l with
  | nil => rfl
  | cons x l ih =>
    rw [takeFirst, if_neg (h x List.mem_cons_self), ih fun y hy => h y (List.mem_cons_of_mem _ hy)]
    rfl

/-! ### SET_MODE -/

theorem exec_setMode (s : State) (tag key mode : Byte) :
    exec (.setMode tag key mode) s = .next (s.requestFrame tag (requestSetMode key mode)) := rfl

theorem Mode.ofByte?_code (m : Mode) : Mode.ofByte? m.code = some m := by
  cases m <;> rfl

theorem Mode.ofByte?_none {v : Byte} (h : 2 < v.toNat) : Mode.ofByte? v = none := by
  rw [Mode.ofByte?, if_neg, if_neg, if_neg] <;> (rintro rfl; exact absurd h (by decide))

section
variable {s : State} {key mode : Byte} {b : Branch} {m : Mode}

theorem requestSetMode_badIndex (h : 3 < key.toNat) (mode : Byte) (s : State) :
    requestSetMode key mode s = (s, .refused .badIndex) := by
  rw [requestSetMode, Branch.ofNat?_none h]

theorem requestSetMode_badValue (hb : Branch.ofNat? key.toNat = some b) (h : 2 < mode.toNat) (s : State) :
    requestSetMode key mode s = (s, .refused .badValue) := by
  simp only [requestSetMode, hb, Mode.ofByte?_none h]

theorem requestSetMode_done (hb : Branch.ofNat? key.toNat = some b) (m : Mode) (s : State) :
    requestSetMode key m.code s = (s.requestMode b m, .done) := by
  simp only [requestSetMode, hb, Mode.ofByte?_code]

/-- The requested mode of a branch recorded (R102). -/
def State.modeRequested (s : State) (b : Branch) (m : Mode) : State := s.onBr b fun B => { B with requested := m }

theorem State.requestMode_eq (s : State) (b : Branch) (m : Mode) : s.requestMode b m =
    if m ≠ (s.br b).current ∧ (s.br b).slot = none then (s.modeRequested b m).takeChange b else s.modeRequested b m := by
  have hbr : (s.modeRequested b m).br b = { s.br b with requested := m } := State.onBr_br_same ..
  have idle : (((s.modeRequested b m).br b).changePending = true ∧ ((s.modeRequested b m).br b).slot.isNone = true) ↔
      m ≠ (s.br b).current ∧ (s.br b).slot = none := by
    rw [hbr, BranchState.changePending, bne_iff_ne, Option.isNone_iff_eq_none]
  exact if_congr idle rfl rfl

end

/-! ### A request by its payload -/

/-- The payload of a request (Formats); that of a malformed one is empty. -/
def Request.payload : Request → List Byte
  | .read table key item selector => readPayload table key item selector
  | .write table key item fields => writePayload table key item fields
  | .deleteNode address => [0x03, address]
  | .resetHealth address => [0x04, address]
  | .purge address => [0x05, address]
  | .swap branch => [0x06, branch]
  | .setMode branch mode => [0x07, branch, mode]
  | .clearFlags group set => [0x08, group, set]
  | .clearCounters group => [0x09, group]
  | .restart => [0x0A]
  | .malformed => []

theorem Request.ofPayload_payload (r : Request) : Request.ofPayload r.payload = r := by
  cases r
  case write => exact Request.ofPayload_write ..
  all_goals rfl

/-- A payload whose kind is no request's is malformed (R193). -/
theorem Request.ofPayload_unlisted {kind : Byte} (h : kind = 0 ∨ 11 ≤ kind.toNat) (rest : List Byte) :
    Request.ofPayload (kind :: rest) = .malformed := by
  rcases h with rfl | h
  · rfl
  · obtain ⟨n, hn⟩ := Nat.exists_eq_add_of_le' h
    unfold Request.ofPayload
    dsimp only
    rw [hn]
    rfl

/-- A payload that is a request is that request's (Formats): no request but a WRITE has more than five bytes. -/
theorem Request.ofPayload_cases (payload : List Byte) :
    Request.ofPayload payload = .malformed ∨ payload = (Request.ofPayload payload).payload := by
  rcases payload with _ | ⟨kind, rest⟩
  · exact .inl rfl
  by_cases unlisted : kind = 0 ∨ 11 ≤ kind.toNat
  · exact .inl (Request.ofPayload_unlisted unlisted rest)
  have listed : kind = 1 ∨ kind = 2 ∨ kind = 3 ∨ kind = 4 ∨ kind = 5 ∨ kind = 6 ∨ kind = 7 ∨ kind = 8 ∨ kind = 9 ∨
      kind = 10 := by bv_omega
  rcases listed with rfl | rfl | rfl | rfl | rfl | rfl | rfl | rfl | rfl | rfl
  · exact match rest with
      | [_, _, _, _] => .inr rfl
      | [] | [_] | [_, _] | [_, _, _] | _ :: _ :: _ :: _ :: _ :: _ => .inl rfl
  · exact match rest with
      | table :: key :: item :: fields =>
        .inr (congrArg Request.payload (Request.ofPayload_write table key item fields).symm)
      | [] | [_] | [_, _] => .inl rfl
  · exact match rest with
      | [_] => .inr rfl
      | [] | _ :: _ :: _ => .inl rfl
  · exact match rest with
      | [_] => .inr rfl
      | [] | _ :: _ :: _ => .inl rfl
  · exact match rest with
      | [_] => .inr rfl
      | [] | _ :: _ :: _ => .inl rfl
  · exact match rest with
      | [_] => .inr rfl
      | [] | _ :: _ :: _ => .inl rfl
  · exact match rest with
      | [_, _] => .inr rfl
      | [] | [_] | _ :: _ :: _ :: _ => .inl rfl
  · exact match rest with
      | [_, _] => .inr rfl
      | [] | [_] | _ :: _ :: _ :: _ => .inl rfl
  · exact match rest with
      | [_] => .inr rfl
      | [] | _ :: _ :: _ => .inl rfl
  · exact match rest with
      | [] => .inr rfl
      | _ :: _ => .inl rfl

theorem Request.payload_of_ofPayload {payload : List Byte} {r : Request} (h : Request.ofPayload payload = r)
    (formed : r ≠ .malformed) : payload = r.payload := by
  rcases Request.ofPayload_cases payload with k | k
  · exact absurd (h.symm.trans k) formed
  · rw [← h]; exact k

theorem formAtFault_eq_false_iff (payload : List Byte) : formAtFault payload = false ↔
    (∃ t k i sel, payload = [0x01, t, k, i, sel]) ∨
      (∃ t k i fields, payload = 0x02 :: t :: k :: i :: fields ∧ walk fields ≠ none) ∨
      (∃ a, payload = [0x03, a]) ∨ (∃ a, payload = [0x04, a]) ∨ (∃ a, payload = [0x05, a]) ∨
      (∃ b, payload = [0x06, b]) ∨ (∃ b m, payload = [0x07, b, m]) ∨ (∃ g f, payload = [0x08, g, f]) ∨
      (∃ g, payload = [0x09, g]) ∨ payload = [0x0A] := by
  constructor
  · intro h
    rw [formAtFault] at h
    have form := fun formed => Request.payload_of_ofPayload (payload := payload) rfl formed
    cases hr : Request.ofPayload payload with
    | malformed => rw [hr] at h; cases h
    | write t k i fields =>
      rw [hr] at h form
      exact .inr (.inl ⟨t, k, i, fields, form (fun e => nomatch e), fun e => by simp [e] at h⟩)
    | _ =>
      rw [hr] at form
      have := form (fun e => nomatch e)
      simp [this, Request.payload, readPayload]
  · rintro (⟨t, k, i, sel, rfl⟩ | ⟨t, k, i, fields, rfl, walked⟩ | ⟨a, rfl⟩ | ⟨a, rfl⟩ | ⟨a, rfl⟩ | ⟨b, rfl⟩ |
      ⟨b, m, rfl⟩ | ⟨g, f, rfl⟩ | ⟨g, rfl⟩ | rfl)
    case inr.inl =>
      have formed : Request.ofPayload (0x02 :: t :: k :: i :: fields) = .write t k i fields :=
        Request.ofPayload_write t k i fields
      rw [formAtFault, formed]
      exact Option.isNone_eq_false_iff.2 (Option.isSome_iff_ne_none.2 walked)
    all_goals rfl

/-! ### Refused requests -/

section
variable {s : State} {tag : Byte} {payload : List Byte}

/-- A request of either row for faults is the request its payload is (log 12). -/
theorem exec_mgmtBadRequest {r : Request} (h : Request.ofPayload payload = r) (answered : r ≠ .restart) :
    exec (.mgmtBadRequest tag payload) s = .next (s.requestFrame tag (carryOut r)) := by
  have taken : State.takePayload tag payload = State.manage tag (carryOut r) := by
    funext u
    rw [State.takePayload, h]
    cases r
    case restart => exact absurd rfl answered
    all_goals rfl
  rw [State.requestFrame, ← taken]
  rfl

theorem carryOut_atFault (h : formAtFault payload = true) (s : State) :
    Request.ofPayload payload ≠ .restart ∧ carryOut (Request.ofPayload payload) s = (s, .refused .badRequest) := by
  rw [formAtFault] at h
  cases hr : Request.ofPayload payload with
  | malformed => exact ⟨fun e => (nomatch e), rfl⟩
  | write t k i fields =>
    rw [hr] at h
    have bad := Option.isNone_iff_eq_none.1 h
    refine ⟨fun e => (nomatch e), ?_⟩
    cases ht : Table.ofNat? t.toNat with
    | none => simp only [carryOut, ht, if_pos h]
    | some table => simpa only [carryOut, ht] using writeTable_badRequest bad ..
  | _ => rw [hr] at h; cases h

theorem Table.ofNat?_none {table : Byte} (h : table = 0 ∨ 8 < table.toNat) : Table.ofNat? table.toNat = none := by
  rcases h with rfl | h
  · rfl
  · obtain ⟨n, hn⟩ := Nat.exists_eq_add_of_le' h
    rw [hn]
    rfl

end
end Sys2Proof.Machine

namespace Sys2Proof.Requests
open Sys2Proof.Machine

/-- Settles O31: each operation at its own address and at the others. -/
theorem tablesAndQueuesAsLists : Obligations.TablesAndQueuesAsLists :=
  ⟨fun l ascending => ⟨fun _ hr => findNode_of_mem ascending hr, findNode_removeNode ascending,
    fun _ b free => findNode_insertNode ascending free b, fun a b _ hf => findNode_updateNode hf l a b⟩,
    ⟨fun _ _ _ h => takeFirst_first h, fun _ _ h => takeFirst_none h⟩, fun _ _ => rfl⟩

/-- Settles O33: the branch, the mode, and the change where it is then pending on an idle branch. -/
theorem modeRequested : Obligations.ModeRequested := by
  refine ⟨fun s tag key mode => ?_, rfl⟩
  intro u
  rw [exec_setMode]
  refine ⟨fun out => congrArg Host.Outcome.next (State.requestFrame_refused (requestSetMode_badIndex out mode _)),
    fun inside out => ?_, fun b m hkey hmode => ?_⟩
  · have hb : ∃ b, Branch.ofNat? key.toNat = some b := by
      rw [Branch.ofNat?_eq_getElem?]
      exact ⟨_, List.getElem?_eq_getElem (Nat.lt_succ_of_le inside)⟩
    obtain ⟨b, hb⟩ := hb
    exact congrArg Host.Outcome.next (State.requestFrame_refused (requestSetMode_badValue hb out _))
  · have hb : Branch.ofNat? key.toNat = some b := by rw [hkey, Branch.ofNat?_toNat]
    have done := requestSetMode_done hb m (s.inHand tag)
    rw [State.requestMode_eq] at done
    rw [hmode]
    refine ⟨fun differs idle => ?_, fun kept => ?_⟩
    · rw [if_pos ⟨differs, idle⟩] at done
      exact congrArg Host.Outcome.next (State.requestFrame_done done)
    · rw [if_neg fun ⟨differs, idle⟩ => kept.elim differs fun busy => busy idle] at done
      exact congrArg Host.Outcome.next (State.requestFrame_done done)

/-- Settles O36: the payload by its form, and either row's payload as the request it is. -/
theorem badRequests : Obligations.BadRequests := by
  refine ⟨fun s tag payload fault => ?_, fun s tag table key item rest unlisted => ⟨fun one => ?_, fun walked => ?_⟩,
    fun payload => ?_, fun s i tag payload _ request => (exec_request request s).symm,
    fun s write tag table key item rest => rfl⟩
  · obtain ⟨answered, refused⟩ := carryOut_atFault fault (s.inHand tag)
    rw [exec_mgmtBadRequest rfl answered]
    exact congrArg Host.Outcome.next (State.requestFrame_refused refused)
  · obtain ⟨selector, rfl⟩ := List.length_eq_one_iff.1 one
    refine (exec_mgmtBadRequest (r := .read table key item selector) rfl (fun e => (nomatch e))).trans
      (congrArg Host.Outcome.next (State.requestFrame_refused ?_))
    simp only [carryOut, Table.ofNat?_none unlisted]
  · refine (exec_mgmtBadRequest (Request.ofPayload_write table key item rest) (fun e => (nomatch e))).trans
      (congrArg Host.Outcome.next (State.requestFrame_refused ?_))
    simp only [carryOut, Table.ofNat?_none unlisted]
    exact if_neg fun none_ => walked (Option.isNone_iff_eq_none.1 none_)
  · rw [← formAtFault_eq_false_iff, Bool.not_eq_false]

end Sys2Proof.Requests
end

section
/-! PROOFS. Cycle ticks, the expiry of commands, the start of a slot and the end of the work on a branch (R22, R34, R51,
R53, R57, R59, R65 to R68, R82 to R84, R97, R103, R110). -/
namespace Sys2Proof.Machine

section
variable {s t : State} {b : Branch}

/-- Two changes of one branch are one. -/
theorem State.count_onBr (s : State) (b : Branch) (f : BranchCounters → BranchCounters) (g : BranchState → BranchState) :
    (s.count b f).onBr b g = s.onBr b fun B => g { B with counters := f B.counters } := State.onBr_onBr ..

/-- A change of a record and one of a branch do not meet. -/
theorem State.onNode_onBr (s : State) (a : Nat) (f : NodeRecord → NodeRecord) (b : Branch)
    (g : BranchState → BranchState) : (s.onNode a f).onBr b g = (s.onBr b g).onNode a f := rfl

/-! ### Cycle ticks -/

theorem exec_cycleTick (h : (s.br b).cycle.timer ≠ none) :
    exec (.cycleTick b) s = .next ((s.startTimer b).tickEngine b).choice := by
  obtain ⟨n, hn⟩ := Option.ne_none_iff_exists'.1 h
  simp only [exec, execCycleTick, hn]

theorem State.startTimer_br (s : State) (b : Branch) :
    (s.startTimer b).br b = { s.br b with cycle := { (s.br b).cycle with timer := some 0 } } := State.onBr_br_same ..

theorem State.tickEngine_stopped (h : (s.br b).cycle.phase = .stopped) : s.tickEngine b = s := by
  simp only [State.tickEngine, h]

theorem State.tickEngine_running (h : (s.br b).cycle.phase = .running) :
    s.tickEngine b = s.onCycle b fun c => { c with late := true } := by
  simp only [State.tickEngine, h]

theorem State.tickEngine_waiting_usable (h : (s.br b).cycle.phase = .waiting)
    (usable : (s.br b).sup.state = .normal ∨ (s.br b).sup.state = .lowPending) :
    s.tickEngine b = s.cycleStart b := by
  simp only [State.tickEngine, h, SupplyState.usable_iff.2 usable, if_true]

theorem State.tickEngine_waiting_out (h : (s.br b).cycle.phase = .waiting) (normal : (s.br b).sup.state ≠ .normal)
    (low : (s.br b).sup.state ≠ .lowPending) : s.tickEngine b = s.suspendedCycle b := by
  simp only [State.tickEngine, h, SupplyState.usable_eq_false normal low, Bool.false_eq_true, if_false]

/-! ### The start of a slot -/

theorem State.skipSlot_eq (s : State) (b : Branch) : s.skipSlot b = s.onBr b fun B => { B with
    cycle := { B.cycle with index := B.cycle.index + 1 }
    counters := { B.counters with slotsSkipped := bump B.counters.slotsSkipped } } := by
  rw [State.skipSlot, State.onCycle, State.count_onBr]

theorem State.startSlot_sync (h : (s.br b).entry = .sync) : s.startSlot b = s.onBr b fun B => { B with
    counters := { B.counters with slotsRun := bump B.counters.slotsRun }
    slot := some { rate := B.rate, phase := .sending, work := .sync }
    line := .sending (syncFrame b B.cycle.number) } := by
  simp only [State.startSlot, h]
  exact State.count_onBr ..

theorem State.startSlot_gap {n : Nat} (h : (s.br b).entry = .gap n) : s.startSlot b = s.onBr b fun B => { B with
    counters := { B.counters with slotsRun := bump B.counters.slotsRun }
    slot := some { rate := B.rate, phase := .holding, work := .gap n } } := by
  simp only [State.startSlot, h]
  exact State.count_onBr ..

theorem State.startSlot_poll {node window retries : Nat} (h : (s.br b).entry = .poll node window retries) :
    s.startSlot b = s.lookup b node window retries := by
  simp only [State.startSlot, h]

section
variable {r : NodeRecord} {node window retries : Nat}

theorem State.lookup_unknown (h : s.node? node = none) : s.lookup b node window retries = s.skipSlot b := by
  simp only [State.lookup, h]

theorem State.lookup_unused (h : s.node? node = some r) (unused : r.branch ≠ b ∨ r.health = .inactive) :
    s.lookup b node window retries = s.skipSlot b := by
  simp only [State.lookup, h]
  by_cases other : r.branch = b
  · rw [if_neg (not_not_intro other)]
    simp only [unused.resolve_left (not_not_intro other)]
  · rw [if_pos other]

theorem State.lookup_up (h : s.node? node = some r) (own : r.branch = b)
    (up : r.health = .online ∨ r.health = .suspect) :
    s.lookup b node window retries = s.chooseFrame b r window retries := by
  simp only [State.lookup, h, if_neg (not_not_intro own)]
  rcases up with up | up <;> simp only [up]

theorem State.lookup_offline_waits (h : s.node? node = some r) (own : r.branch = b) (offline : r.health = .offline)
    (waits : 1 < r.countdown) : s.lookup b node window retries =
      (s.onNode node fun q => { q with countdown := r.countdown - 1 }).skipSlot b := by
  simp only [State.lookup, h, if_neg (not_not_intro own), offline, if_pos (show 0 < r.countdown - 1 by omega)]

theorem State.lookup_offline_due (h : s.node? node = some r) (own : r.branch = b) (offline : r.health = .offline)
    (due : r.countdown ≤ 1) : s.lookup b node window retries =
      (s.onNode node fun q => { q with countdown := r.divisor }).chooseFrame b r window retries := by
  simp only [State.lookup, h, if_neg (not_not_intro own), offline, if_neg (show ¬ 0 < r.countdown - 1 by omega)]

/-- A poll or a command on the line (R68, R69): the slot, its frame and the queue the command left. -/
def BranchState.polling (B : BranchState) (node window retries : Nat) (frame : PollFrame) (queue : List Command)
    (line : LineFrame) : BranchState :=
  { B with
    counters := { B.counters with slotsRun := bump B.counters.slotsRun }
    queue := queue, line := .sending line
    slot := some { rate := B.rate, phase := .sending
                   work := .poll { node := node, window := window, retriesLeft := retries, frame := frame
                                   failure := none, reply := none, quietFrom := .handOver } } }

theorem State.chooseFrame_poll (h : takeFirst r.address (s.br b).queue = none) :
    s.chooseFrame b r window retries = s.onBr b fun B =>
      B.polling r.address window retries .poll B.queue (LineFrame.sealed (BitVec.ofNat 8 r.address) 0x10 0 []) := by
  have queue : takeFirst r.address
      ((s.count b fun c => { c with slotsRun := bump c.slotsRun }).br b).queue = none := by
    rw [State.count, State.onBr_br_same]; exact h
  simp only [State.chooseFrame, queue]
  rw [State.beginAttempt, State.count_onBr, State.count, State.onBr_br_same]
  rfl

theorem State.chooseFrame_command {c : Command} {rest : List Command}
    (h : takeFirst r.address (s.br b).queue = some (c, rest)) :
    s.chooseFrame b r window retries =
      (s.onNode r.address fun q => { q with toggle := !r.toggle }).onBr b fun B =>
        B.polling r.address window retries (.cmd (!r.toggle) { tag := c.tag, node := c.node, payload := c.payload }) rest
          (LineFrame.sealed (BitVec.ofNat 8 r.address) 0x11 (if r.toggle then 0 else 1) c.payload) := by
  have queue : takeFirst r.address
      ((s.count b fun c => { c with slotsRun := bump c.slotsRun }).br b).queue = some (c, rest) := by
    rw [State.count, State.onBr_br_same]; exact h
  have taken : (s.count b fun c => { c with slotsRun := bump c.slotsRun }).onBr b (fun B => { B with queue := rest }) =
      s.onBr b fun B => { B with counters := { B.counters with slotsRun := bump B.counters.slotsRun }, queue := rest } :=
    State.count_onBr ..
  have frame : cmdFrame r.address (!r.toggle) c.payload =
      LineFrame.sealed (BitVec.ofNat 8 r.address) 0x11 (if r.toggle then 0 else 1) c.payload := by
    cases r.toggle <;> rfl
  simp only [State.chooseFrame, queue, taken, State.launch, State.beginAttempt, PollWork.lineFrame, frame,
    State.onBr_br_same]
  rw [State.onNode_onBr, State.onNode_onBr, State.onBr_onBr]
  rfl

end

/-! ### The end of the work -/

theorem State.endWork_onDemand (h : (s.br b).current = .onDemand) :
    s.endWork b = if (s.br b).changePending then (s.rest b).takeChange b else (s.rest b).kick b := by
  rw [State.endWork, if_pos h, State.endTransaction_eq, State.afterTransaction, State.rest_br]
  rfl

theorem BranchState.changePending_iff {B : BranchState} : B.changePending = true ↔ B.requested ≠ B.current := bne_iff_ne

/-- The slot of a cycle ended: the line at rest and the next slot index due (R84). -/
theorem State.afterSlot_rest (s : State) (b : Branch) :
    (s.rest b).afterSlot b =
      if (s.br b).changePending then
        (s.onBr b fun B => { B with
          slot := none, line := .quiet, cycle := { B.cycle with index := B.cycle.index + 1 } }).takeChange b
      else
        (s.onBr b fun B => { B with
          slot := none, line := .quiet, cycle := { B.cycle with index := B.cycle.index + 1 } }).continueCycle b := by
  have ended : (s.rest b).onCycle b (fun c => { c with index := c.index + 1 }) = s.onBr b fun B => { B with
      slot := none, line := .quiet, cycle := { B.cycle with index := B.cycle.index + 1 } } := State.onBr_onBr ..
  rw [State.afterSlot, ended, State.onBr_br_same]
  rfl

theorem State.endWork_slot (h : (s.br b).current ≠ .onDemand) : s.endWork b = s.endSlot b := if_neg h

theorem exec_syncSlotEnd {rate : LineRate} {phase : Phase}
    (h : (s.br b).slot = some { rate := rate, phase := phase, work := .sync }) :
    exec (.syncSlotEnd b) s = .next (s.endSlot b).choice := by
  simp only [exec, execSyncSlotEnd, h]

theorem exec_gapSlotEnd {rate : LineRate} {phase : Phase} {n : Nat}
    (h : (s.br b).slot = some { rate := rate, phase := phase, work := .gap n }) :
    exec (.gapSlotEnd b) s = .next (s.endSlot b).choice := by
  simp only [exec, execGapSlotEnd, h]

theorem exec_attemptFrameSent {rate : LineRate} {w : PollWork}
    (h : (s.br b).slot = some { rate := rate, phase := .sending, work := .poll w }) :
    exec (.attemptFrameSent b) s = .next (s.onBr b fun B =>
      { B with slot := some { rate := rate, phase := .listening, work := .poll w }, line := .hunting }) := by
  simp only [exec, execAttemptFrameSent, h]

end
end Sys2Proof.Machine

namespace Sys2Proof.Slots
open Sys2Proof.Machine

/-- Settles O38: the timer's count returns to 0, and the engine takes the tick by its phase. -/
theorem cycleTick : Obligations.CycleTick := by
  intro s b B u runs
  rw [exec_cycleTick runs]
  have hu : u = s.startTimer b := rfl
  have hB : u.br b = { B with cycle := { B.cycle with timer := some 0 } } := State.startTimer_br s b
  rw [← hu]
  refine ⟨fun stopped => ?_, fun running => ?_, fun waiting usable => ?_, fun waiting normal low => ?_⟩
  · rw [State.tickEngine_stopped (by rw [hB, stopped])]
  · rw [State.tickEngine_running (by rw [hB, running])]
    rw [hu, State.startTimer, State.onCycle, State.onCycle, State.onBr_onBr]
    rfl
  · rw [State.tickEngine_waiting_usable (by rw [hB, waiting]) (by rw [hB]; exact usable)]
  · rw [State.tickEngine_waiting_out (by rw [hB, waiting]) (by rw [hB]; exact normal) (by rw [hB]; exact low),
      State.suspendedCycle_eq, State.takePendingSwap, hB]
    rfl

/-- Settles O42: the entries whose next visit would be their last. -/
theorem commandExpiry : Obligations.CommandExpiry := by
  intro s b expired
  rw [exec, execCommandExpiry, State.expireDue, State.expireAll_eq]
  rfl

/-- Settles O44: the frame sent, the two slots without a reply, and what follows the end of the work. -/
theorem workEnds : Obligations.WorkEnds := by
  refine ⟨fun s b => ⟨fun rate w h => exec_attemptFrameSent h, fun engine => ⟨fun rate phase h => ?_,
    fun rate phase n h => ?_⟩⟩, fun s b => ?_, fun B => ?_⟩
  · rw [State.endWork_slot engine]; exact exec_syncSlotEnd h
  · rw [State.endWork_slot engine]; exact exec_gapSlotEnd h
  · intro B index v
    have index_onDemand : B.current = .onDemand → v = s.rest b := fun h => by
      simp only [v, index, if_pos h]
      rfl
    have index_scheduled : B.current ≠ .onDemand → v = s.onBr b fun B => { B with
        slot := none, line := .quiet, cycle := { B.cycle with index := B.cycle.index + 1 } } := fun h => by
      simp only [v, index, if_neg h]
      rfl
    refine ⟨fun pending => ?_, fun settled onDemand => ?_, fun settled engine => ?_⟩
    · by_cases onDemand : B.current = .onDemand
      · rw [State.endWork_onDemand onDemand, if_pos (BranchState.changePending_iff.2 pending),
          index_onDemand onDemand]
      · rw [State.endWork_slot onDemand, State.endSlot_eq, State.afterSlot_rest,
          if_pos (BranchState.changePending_iff.2 pending), index_scheduled onDemand]
    · rw [State.endWork_onDemand onDemand,
        if_neg fun pending => BranchState.changePending_iff.1 pending settled, index_onDemand onDemand]
    · rw [State.endWork_slot engine, State.endSlot_eq, State.afterSlot_rest,
        if_neg fun pending => BranchState.changePending_iff.1 pending settled, index_scheduled engine]
      rfl
  · rw [BranchState.driverEnable]
    cases B.line <;> simp

/-- Settles O41: the entry at the slot index, and for a POLL slot the record it finds. -/
theorem slotStart : Obligations.SlotStart := by
  intro s b B run skipped poll chosen
  have chooses : ∀ (t : State) (r : NodeRecord) (window retries : Nat), t.br b = B →
      t.chooseFrame b r window retries = chosen t r window retries := fun t r window retries same => by
    cases h : takeFirst r.address B.queue with
    | none =>
      rw [State.chooseFrame_poll (by rw [same]; exact h), State.onBr, same]
      simp only [chosen, h]
      rfl
    | some taken =>
      rw [State.chooseFrame_command (by rw [same]; exact h), State.onBr, State.onNode_br, same]
      simp only [chosen, h]
      rfl
  have skips : ∀ t : State, t.br b = B → t.skipSlot b = skipped t := fun t same => by
    rw [State.skipSlot_eq, State.onBr, same]
    simp only [skipped, same]
  refine ⟨?_, fun inside => ?_, fun sync => ?_, fun n gap => ?_, fun node window retries entry => ?_⟩
  · rw [BranchState.active]
    cases B.activeBank <;> rfl
  · rw [BranchState.entry, List.getD_eq_getElem _ _ (by simpa using inside), Vector.getElem_toList]
  · rw [State.startSlot_sync sync]
    rfl
  · rw [State.startSlot_gap gap]
    rfl
  rw [State.startSlot_poll entry]
  refine ⟨fun unknown => (State.lookup_unknown unknown).trans (skips s rfl), fun r hr =>
    ⟨fun unused => (State.lookup_unused hr unused).trans (skips s rfl), fun own =>
    ⟨fun up => (State.lookup_up hr own up).trans (chooses s r window retries rfl), fun offline =>
    ⟨fun waits => (State.lookup_offline_waits hr own offline waits).trans (skips _ rfl), fun due =>
      (State.lookup_offline_due hr own offline due).trans (chooses _ r window retries rfl)⟩⟩⟩⟩

end Sys2Proof.Slots
end

section
/-! PROOFS. Attempts: how they are classed and how they end, and the characters of a branch line (R15, R16, R69 to R74,
R193). -/
namespace Sys2Proof.Machine

section
variable {s : State} {b : Branch} {rate : LineRate} {w : PollWork}

/-! ### How an attempt is classed -/

section
variable {f : LineFrame}

theorem PollWork.classify_wrongNode (h : f.address.toNat ≠ w.node) : w.classify f = some .wrongNode := if_pos h

theorem PollWork.classify_badCheck (own : f.address.toNat = w.node) (bad : f.checkAgrees = false) :
    w.classify f = some .badCheck := by
  rw [PollWork.classify, if_neg (not_not_intro own), bad]
  rfl

theorem PollWork.classify_poll (own : f.address.toNat = w.node) (good : f.checkAgrees = true) (frame : w.frame = .poll) :
    w.classify f = if f.kind = 0x20 then none else some .badForm := by
  simp only [PollWork.classify, if_neg (not_not_intro own), good, frame]
  rfl

theorem PollWork.classify_command {toggle : Bool} {c : InFlight} (own : f.address.toNat = w.node)
    (good : f.checkAgrees = true) (frame : w.frame = .cmd toggle c) :
    w.classify f = if (f.kind = 0x21 ∨ f.kind = 0x22) ∧ f.third = (if toggle then 1 else 0) then none
      else some .badForm := by
  have form : w.classify f = if f.kind ≠ 0x21 ∧ f.kind ≠ 0x22 then some .badForm
      else if f.third ≠ (if toggle then 1 else 0) then some .badForm else none := by
    simp only [PollWork.classify, if_neg (not_not_intro own), good, frame]
    rfl
  rw [form]
  by_cases kind : f.kind = 0x21 ∨ f.kind = 0x22
  · by_cases third : f.third = (if toggle then 1 else 0)
    · rw [if_neg (not_and_or.2 (kind.imp not_not_intro not_not_intro)), if_neg (not_not_intro third),
        if_pos ⟨kind, third⟩]
    · rw [if_neg (not_and_or.2 (kind.imp not_not_intro not_not_intro)), if_pos third, if_neg fun h => third h.2]
  · rw [if_pos (not_or.1 kind), if_neg fun h => kind h.1]

end

/-- The class of a fragment by its address (R70). -/
theorem PollWork.classifyFragment_eq (w : PollWork) (a : Byte) :
    w.classifyFragment a = if a.toNat = w.node then .badForm else .wrongNode := ite_not ..

/-! ### How an attempt ends -/

theorem State.endAttempt_last (h : w.retriesLeft = 0) : s.endAttempt b rate w = (s.writeBack b w).endWork b := by
  simp only [State.endAttempt, h]
  rfl

theorem State.endAttempt_retry {n : Nat} (h : w.retriesLeft = n + 1) : s.endAttempt b rate w =
    s.onBr b fun B => { B with
      counters := { B.counters with retries := bump B.counters.retries }
      slot := some { rate := rate, phase := .sending, work := .poll { w with retriesLeft := n } }
      line := .sending w.lineFrame } := by
  simp only [State.endAttempt, h]
  exact State.count_onBr ..

/-- The branch after a failed attempt is counted (R89). -/
def BranchState.failureCounted (B : BranchState) (cls : FailClass) : BranchState :=
  { B with
    counters := if cls = .noReply then { B.counters with noReply := bump B.counters.noReply }
                else { B.counters with lineErrors := bump B.counters.lineErrors } }

theorem State.countFailure_eq (s : State) (b : Branch) (cls : FailClass) :
    s.countFailure b cls = s.onBr b fun B => B.failureCounted cls := by
  cases cls <;> rfl

theorem State.failAttempt_eq (s : State) (b : Branch) (rate : LineRate) (w : PollWork) (cls : FailClass) :
    s.failAttempt b rate w cls =
      State.endAttempt (s.onBr b fun B => B.failureCounted cls) b rate { w with failure := some cls } := by
  rw [State.failAttempt, State.countFailure_eq]

/-! ### What is heard while the slot listens -/

theorem exec_nothingHeard (slot : (s.br b).slot = some { rate := rate, phase := .listening, work := .poll w })
    (line : (s.br b).line = .hunting) :
    exec (.nothingHeard b) s = .next (s.failAttempt b rate w .noReply).choice := by
  simp only [exec, execNothingHeard, slot, line]

theorem exec_settlingEnd (slot : (s.br b).slot = some { rate := rate, phase := .settling, work := .poll w }) :
    exec (.settlingEnd b) s = .next (s.endAttempt b rate w).choice := by
  simp only [exec, execSettlingEnd, slot]

theorem BranchState.listening_eq {B : BranchState}
    (slot : B.slot = some { rate := rate, phase := .listening, work := .poll w })
    (line : B.line = .hunting ∨ ∃ taken, B.line = .receiving taken) : B.listening = some (rate, w) := by
  rcases line with line | ⟨taken, line⟩ <;> simp only [BranchState.listening, slot, line]

section
variable (listens : (s.br b).listening = some (rate, w))
include listens

theorem State.heardGap_eq (a : Byte) : s.heardGap b a = s.failAttempt b rate w (w.classifyFragment a) := by
  simp only [State.heardGap, listens]

theorem State.heardFrame_failed {f : LineFrame} {cls : FailClass} (h : w.classify f = some cls) :
    s.heardFrame b f = s.failAttempt b rate w cls := by
  simp only [State.heardFrame, listens, h]

theorem State.heardFrame_ok {f : LineFrame} (h : w.classify f = none) : s.heardFrame b f =
    (s.writeBack b { w with reply := some { kind := f.kind, tog := f.third, payload := f.payload } }).endWork b := by
  simp only [State.heardFrame, listens, h]
  rfl

theorem State.heardFragment_eq (a : Byte) (cause : FragmentCause) : s.heardFragment b a cause =
    s.onBr b fun B => { B with
      line := .quiet
      counters := { B.counters with lineErrors := bump B.counters.lineErrors }
      slot := some { rate := rate, phase := .settling
                     work := .poll { w with
                       failure := some (if a.toNat = w.node then .badForm else .wrongNode)
                       quietFrom := if cause = .framingError then .lineReturn else .handOver } } } := by
  have counted : ∀ B : BranchState, B.failureCounted (if a.toNat = w.node then .badForm else .wrongNode) =
      { B with counters := { B.counters with lineErrors := bump B.counters.lineErrors } } := fun B => by
    split <;> rfl
  simp only [State.heardFragment, listens, State.settleAttempt, State.countFailure_eq, State.onBr_onBr,
    PollWork.classifyFragment_eq, counted]
  cases cause <;> rfl

end

/-! ### Characters of the line -/

theorem State.heardQuiet_settling (slot : (s.br b).slot = some { rate := rate, phase := .settling, work := .poll w })
    (start : QuietFrom) : s.heardQuiet b start = s.onBr b fun B =>
      { B with slot := some { rate := rate, phase := .settling, work := .poll { w with quietFrom := start } } } := by
  rcases s.heardQuiet_eq b start with ⟨rate', w', slot', h⟩ | ⟨other, -⟩
  · cases slot.symm.trans slot'
    exact h
  · exact absurd slot (other rate w)

/-- On a QUIET line no reply is being heard, and a framing error is one heard there (R15, log 6). -/
theorem State.heardFragment_quiet (line : (s.br b).line = .quiet) (a : Byte) :
    s.heardFragment b a .framingError = s.heardQuiet b .lineReturn := by
  have idle : (s.br b).listening = none := BranchState.listening_none (.inr (.inl line))
  simp only [State.heardFragment, idle, line]

section
variable {v : Byte} {a : Byte} {rest : List Byte}

theorem exec_branchCharacter_sending {f : LineFrame} (line : (s.br b).line = .sending f) (marker : Bool) (v : Byte) :
    exec (.branchCharacter b marker v) s = .next s := by
  simp only [exec, execBranchCharacter, line]

theorem exec_branchCharacter_quiet (line : (s.br b).line = .quiet) (marker : Bool) (v : Byte) :
    exec (.branchCharacter b marker v) s = .next (s.heardQuiet b .lastCharacter) := by
  simp only [exec, execBranchCharacter, line]

theorem exec_branchCharacter_data (line : (s.br b).line = .hunting) (v : Byte) :
    exec (.branchCharacter b false v) s = .next s := by
  simp only [exec, execBranchCharacter, line, Bool.false_eq_true, if_false]

theorem exec_branchCharacter_address (line : (s.br b).line = .hunting) (v : Byte) :
    exec (.branchCharacter b true v) s = .next (s.onBr b fun B => { B with line := .receiving [v] }) := by
  simp only [exec, execBranchCharacter, line, if_true]

section
variable (line : (s.br b).line = .receiving (a :: rest))
include line

theorem exec_branchCharacter_interrupted (v : Byte) :
    exec (.branchCharacter b true v) s = exec (.branchFragment b a .interrupted) s := by
  simp only [exec, execBranchCharacter, execBranchFragment, line, if_true, List.headD_cons]

theorem exec_branchCharacter_overLength (h : takeData branchLenLimit (a :: rest) v = .overLength) :
    exec (.branchCharacter b false v) s = exec (.branchFragment b a .overLength) s := by
  simp only [exec, execBranchCharacter, execBranchFragment, line, h, Bool.false_eq_true, if_false, List.headD_cons]

theorem exec_branchCharacter_more {more : List Byte} (h : takeData branchLenLimit (a :: rest) v = .more more) :
    exec (.branchCharacter b false v) s = .next (s.onBr b fun B => { B with line := .receiving more }) := by
  simp only [exec, execBranchCharacter, line, h, Bool.false_eq_true, if_false]

theorem exec_branchCharacter_complete {f : LineFrame} (h : takeData branchLenLimit (a :: rest) v = .complete f) :
    exec (.branchCharacter b false v) s = exec (.branchReplyComplete b f) s := by
  simp only [exec, execBranchCharacter, execBranchReplyComplete, line, h, Bool.false_eq_true, if_false]

end
end
end
end Sys2Proof.Machine

namespace Sys2Proof.Attempts
open Sys2Proof.Machine

/-- Settles O45: the rows of R70 in their order, and what each ending comes to. -/
theorem attemptClassed : Obligations.AttemptClassed := by
  refine ⟨fun w f => ⟨PollWork.classify_wrongNode, PollWork.classify_badCheck, fun own good =>
    ⟨PollWork.classify_poll own good, fun toggle c => PollWork.classify_command own good⟩⟩, fun s b rate w => ?_,
    fun s b rate w a cause slot line => ?_⟩
  · intro B failed byAddress
    have fails : ∀ cls, s.failAttempt b rate w cls = failed cls := fun cls => State.failAttempt_eq ..
    have fragment : ∀ a, w.classifyFragment a = byAddress a := fun a => w.classifyFragment_eq a
    refine ⟨fun slot => ⟨fun line => ?_, fun line => ?_⟩, fun slot => exec_settlingEnd slot⟩
    · rw [exec_nothingHeard slot line, fails]
    · have listens := BranchState.listening_eq slot line
      refine ⟨fun a => ?_, fun f => ⟨fun cls failed => ?_, fun ok => ?_⟩⟩
      · rw [exec, execBranchGap, State.heardGap_eq listens, fails, fragment]
      · rw [exec, execBranchReplyComplete, State.heardFrame_failed listens failed, fails]
      · rw [exec, execBranchReplyComplete, State.heardFrame_ok listens ok]
  · exact congrArg Host.Outcome.next (State.heardFragment_eq (BranchState.listening_eq slot line) a cause)

/-- Settles O46: the last attempt is written back, and any other is made again with the same frame. -/
theorem attemptEnds : Obligations.AttemptEnds := by
  refine fun s b rate w => ⟨State.endAttempt_last, fun n more => ?_⟩
  rw [State.endAttempt_retry more, PollWork.lineFrame]
  cases w.frame <;> rfl

/-- Settles O47: the character by the state of the line unit. -/
theorem branchCharacters : Obligations.BranchCharacters := by
  intro s b v B lined
  refine ⟨fun f marker line => exec_branchCharacter_sending line marker v, fun marker line => ⟨fun rate w slot => ?_,
    fun slot => ?_⟩, fun a line => ⟨fun rate w slot => ?_, fun slot => ?_⟩, fun line =>
    ⟨exec_branchCharacter_data line v, exec_branchCharacter_address line v⟩, fun a rest line =>
    ⟨exec_branchCharacter_interrupted line v, fun short exceeds => ?_, fun more => ?_, fun f fits values => ?_⟩⟩
  · rw [exec_branchCharacter_quiet line, State.heardQuiet_settling slot]
    rfl
  · rw [exec_branchCharacter_quiet line, State.heardQuiet_idle slot]
  · rw [exec, execBranchFragment, State.heardFragment_quiet line, State.heardQuiet_settling slot]
    rfl
  · rw [exec, execBranchFragment, State.heardFragment_quiet line, State.heardQuiet_idle slot]
  · exact exec_branchCharacter_overLength line (takeData_overLength (by rw [List.length_cons, short]) exceeds)
  · exact exec_branchCharacter_more line (takeData_more more)
  · exact exec_branchCharacter_complete line (takeData_complete (Nat.lt_of_le_of_lt fits (by decide)) values)

end Sys2Proof.Attempts
end

section
/-! PROOFS. The supply: what a change of it does, and a supply fault; and what an event of one branch leaves unchanged
(R58, R64, R85, R184, R185, R187, R189). -/
namespace Sys2Proof.Machine

section
variable {s t : State} {b : Branch}

/-! ### Rises and falls -/

theorem State.takeRise_still (h : (s.br b).sup.state = .disabled ∨ (s.br b).sup.state = .normal) :
    s.takeRise b = s := by
  rcases h with h | h <;> simp only [State.takeRise, h]

theorem State.takeRise_restores (h : (s.br b).sup.state = .restorePending ∨ (s.br b).sup.state = .fault) :
    s.takeRise b = s.onBr b fun B =>
      { B with sup := { B.sup with state := .restorePending, restore := some 0 } } := by
  rcases h with h | h <;> simp only [State.takeRise, State.onSup, State.onBr, h]

theorem State.takeRise_glitch (h : (s.br b).sup.state = .lowPending) : s.takeRise b = s.onBr b fun B =>
    { B with sup := { B.sup with state := .normal, qualify := none }
             counters := { B.counters with glitches := bump B.counters.glitches } } := by
  simp only [State.takeRise, h]
  exact State.onBr_onBr ..

theorem State.takeFall_still (h : (s.br b).sup.state = .disabled ∨ (s.br b).sup.state = .lowPending ∨
    (s.br b).sup.state = .fault) : s.takeFall b = s := by
  rcases h with h | h | h <;> simp only [State.takeFall, h]

theorem State.takeFall_restorePending (h : (s.br b).sup.state = .restorePending) :
    s.takeFall b = s.onBr b fun B => { B with sup := { B.sup with restore := none } } := by
  simp only [State.takeFall, h]
  rfl

theorem State.takeFall_normal (h : (s.br b).sup.state = .normal) :
    s.takeFall b = s.onBr b fun B => { B with sup := { B.sup with state := .lowPending, qualify := some 0 } } := by
  simp only [State.takeFall, h]
  rfl

theorem State.compare_disabled (h : (s.br b).sup.enabled = false) (was : Bool) : s.compare b was = s := by
  simp only [State.compare, h, Bool.false_eq_true, if_false]

/-- A branch whose supply stands above `n` thresholds (R184). -/
def State.supplied (s : State) (b : Branch) (n : Fin 9) : State := s.onBr b fun B => { B with supply := n }

theorem State.supplied_br (s : State) (b : Branch) (n : Fin 9) :
    (s.supplied b n).br b = { s.br b with supply := n } := State.onBr_br_same ..

theorem State.supplied_self (s : State) (b : Branch) : s.supplied b (s.br b).supply = s :=
  congrArg (fun p => { s with branches := p }) (Per.set_get s.branches b)

theorem exec_supplyRise_against {n : Fin 9} (h : n < (s.br b).supply) : exec (.supplyRise b n) s = .next s := by
  have same : s.onBr b (fun B => { B with supply := if B.supply < n then n else B.supply }) = s := by
    rw [State.onBr, if_neg (Fin.not_lt.2 (Fin.le_of_lt h))]
    exact s.supplied_self b
  simp only [exec, execSupplyRise, same, State.compare_same]

theorem exec_supplyFall_against {n : Fin 9} (h : (s.br b).supply < n) : exec (.supplyFall b n) s = .next s := by
  have same : s.onBr b (fun B => { B with supply := if n < B.supply then n else B.supply }) = s := by
    rw [State.onBr, if_neg (Fin.not_lt.2 (Fin.le_of_lt h))]
    exact s.supplied_self b
  simp only [exec, execSupplyFall, same, State.compare_same]

theorem exec_supplyRise {n : Fin 9} (h : (s.br b).supply ≤ n) :
    exec (.supplyRise b n) s = .next ((s.supplied b n).compare b (s.br b).above) := by
  have supply : (if (s.br b).supply < n then n else (s.br b).supply) = n := by
    split
    · rfl
    · exact Fin.le_antisymm h (Fin.not_lt.1 ‹_›)
  have risen : s.onBr b (fun B => { B with supply := if B.supply < n then n else B.supply }) = s.supplied b n := by
    rw [State.onBr, supply]
    rfl
  simp only [exec, execSupplyRise, risen]

theorem exec_supplyFall {n : Fin 9} (h : n ≤ (s.br b).supply) :
    exec (.supplyFall b n) s = .next ((s.supplied b n).compare b (s.br b).above) := by
  have supply : (if n < (s.br b).supply then n else (s.br b).supply) = n := by
    split
    · rfl
    · exact Fin.le_antisymm (Fin.not_lt.1 ‹_›) h
  have fallen : s.onBr b (fun B => { B with supply := if n < B.supply then n else B.supply }) = s.supplied b n := by
    rw [State.onBr, supply]
    rfl
  simp only [exec, execSupplyFall, fallen]

/-- A supply that crosses no threshold changes the supply alone (R185). -/
theorem State.supplied_compare_same {n : Fin 9} (h : (s.br b).sup.enabled = false ∨
    ((s.br b).sup.level < (s.br b).supply.val ↔ (s.br b).sup.level < n.val)) :
    (s.supplied b n).compare b (s.br b).above = s.supplied b n := by
  rcases h with h | h
  · exact State.compare_disabled (by rw [State.supplied_br]; exact h) _
  · have same : (s.br b).above = ((s.supplied b n).br b).above := by
      rw [Bool.eq_iff_iff, BranchState.above_iff, BranchState.above_iff, State.supplied_br]
      exact h
    rw [same, State.compare_same]

theorem State.supplied_compare_rise {n : Fin 9} (enabled : (s.br b).sup.enabled = true)
    (below : (s.br b).supply.val ≤ (s.br b).sup.level) (above : (s.br b).sup.level < n.val) :
    (s.supplied b n).compare b (s.br b).above = (s.supplied b n).takeRise b := by
  rw [BranchState.not_above_iff.2 below]
  exact State.compare_rise (by rw [State.supplied_br]; exact enabled)
    (by rw [State.supplied_br]; exact BranchState.above_iff.2 above)

theorem State.supplied_compare_fall {n : Fin 9} (enabled : (s.br b).sup.enabled = true)
    (below : n.val ≤ (s.br b).sup.level) (above : (s.br b).sup.level < (s.br b).supply.val) :
    (s.supplied b n).compare b (s.br b).above = (s.supplied b n).takeFall b := by
  rw [BranchState.above_iff.2 above]
  exact State.compare_fall (by rw [State.supplied_br]; exact enabled)
    (by rw [State.supplied_br]; exact BranchState.not_above_iff.2 below)

/-! ### A supply fault -/

theorem exec_qualifyTimerExpiry (low : (s.br b).sup.state = .lowPending) (runs : (s.br b).sup.qualify ≠ none) :
    exec (.qualifyTimerExpiry b) s = .next (s.enterFault b).choice := by
  obtain ⟨n, hn⟩ := Option.ne_none_iff_exists'.1 runs
  simp only [exec, execQualifyTimerExpiry, low, hn]

theorem BranchState.inFlight_iff (B : BranchState) (c : InFlight) : B.inFlight = some c ↔
    ∃ rate phase w toggle, B.slot = some { rate := rate, phase := phase, work := .poll w } ∧ w.frame = .cmd toggle c := by
  constructor
  · intro h
    unfold BranchState.inFlight at h
    split at h
    · rename_i rate phase w slot
      split at h
      · rename_i toggle c' frame
        cases h
        exact ⟨_, _, w, toggle, slot, frame⟩
      · cases h
    · cases h
  · rintro ⟨rate, phase, w, toggle, slot, frame⟩
    simp only [BranchState.inFlight, slot, frame]

/-- The RESULT of the command in flight, where there is one (R85). -/
def BranchState.flightFaults (B : BranchState) : List Entry :=
  (B.inFlight.map fun c =>
    { cls := .result, payload := resultPayload c.tag c.node .lineFault [], state := .queued : Entry }).toList

/-- The work abandoned: its command answered LINE_FAULT (R85). -/
theorem State.abandon_eq (s : State) (b : Branch) :
    s.abandon b = { s.onBr b fun B => { B with slot := none, line := .quiet } with
      pool := s.pool ++ (s.br b).flightFaults
      credits := s.credits - (s.br b).flightFaults.length } := by
  rw [State.abandon, BranchState.flightFaults]
  cases (s.br b).inFlight with
  | none =>
    simp only [Option.map_none, Option.toList_none, List.append_nil, List.length_nil, Nat.sub_zero]
    rfl
  | some c => rfl

/-- The part once a supervisor is in FAULT: the command in flight answered first, and then those of the queue (R187). -/
theorem State.faulted_eq (s : State) (b : Branch) :
    s.faulted b = { s with
      eu := { s.eu with groups := s.eu.groups.set b ((s.eu.groups.get b).raise 0x20) }
      pool := s.pool ++ (s.br b).flightFaults ++ (s.br b).queue.map (removedEntry .lineFault)
      credits := s.credits - (s.br b).flightFaults.length - (s.br b).queue.length
      branches := s.branches.set b { s.br b with
        sup := { (s.br b).sup with state := .fault, qualify := none, faultMark := true }
        slot := none, line := .quiet, queue := []
        cycle := if (s.br b).cycle.phase = .running then { (s.br b).cycle with phase := .waiting, late := false }
          else (s.br b).cycle } } := by
  simp only [State.faulted, State.faultCycle, State.onCycle, State.flushQueue_eq, State.abandon_eq, State.signal_eq,
    State.onSup, State.onBr, State.br, Per.get_set_same, Per.set_set]
  rfl

/-! ### What an event of a branch leaves -/

/-- An event of one branch is a step of that branch on the supply it finds, and then at most a choice of the Delivery
Unit. -/
theorem branchRow_step {c : Instr} (row : branchRow c = some b) (h : exec c s = .next t) :
    ∃ p u, (∀ d, d ≠ b → p.get d = s.br d) ∧ (∃ n, p.get b = { s.br b with supply := n }) ∧
      BranchStep b { s with branches := p } u ∧ DeliveryStep u t := by
  obtain ⟨v, u, hv, ⟨step, -⟩, ht⟩ := worked_exec (R := fun _ => True) (idle := False) (fun i => i.elim)
    (fun _ _ _ _ _ => trivial) (bytesIn_any s c) row h
  have delivered : DeliveryStep u t := by
    rcases ht with rfl | rfl
    · exact .rfl
    · exact deliveryStep_choice
  rcases hv with rfl | ⟨n, rfl⟩
  · exact ⟨v.branches, u, fun d _ => rfl, ⟨_, rfl⟩, step, delivered⟩
  · exact ⟨_, u, fun d hd => Per.get_set_other _ _ hd, ⟨n, Per.get_set_same ..⟩, step, delivered⟩

theorem branchRow_iff (c : Instr) (b : Branch) : branchRow c = some b ↔
    c ∈ [.cycleTick b, .commandExpiry b, .attemptFrameSent b, .nothingHeard b, .settlingEnd b, .syncSlotEnd b,
      .gapSlotEnd b, .qualifyTimerExpiry b, .restoreTimerExpiry b] ∨
    (∃ f, c = .branchReplyComplete b f) ∨ (∃ a cause, c = .branchFragment b a cause) ∨ (∃ a, c = .branchGap b a) ∨
    (∃ n, c = .supplyRise b n) ∨ (∃ n, c = .supplyFall b n) ∨ ∃ marker v, c = .branchCharacter b marker v := by
  cases c <;> simp [branchRow]

end
end Sys2Proof.Machine

namespace Sys2Proof.SupplyEvents
open Sys2Proof.Machine

/-- Settles O50: the supply first, and then a rise or a fall where the comparator's report changes. -/
theorem supplyChanges : Obligations.SupplyChanges := by
  refine ⟨fun s b n => ?_, rfl, fun B => bne_iff_ne⟩
  intro B set
  have hB : (s.supplied b n).br b = { B with supply := n } := s.supplied_br b n
  have kept : s.supplied b n = set B.sup B.counters := rfl
  have changed : ∀ f : BranchState → BranchState, (s.supplied b n).onBr b f =
      s.onBr b fun B => f { B with supply := n } := fun f => State.onBr_onBr ..
  refine ⟨exec_supplyRise_against, exec_supplyFall_against, fun le => ⟨fun h => ?_, fun enabled below above => ?_⟩,
    fun le => ⟨fun h => ?_, fun enabled below above => ?_⟩, ?_⟩
  · have risen : (s.br b).supply.val ≤ n.val := le
    rw [exec_supplyRise le, State.supplied_compare_same, kept]
    exact h.imp_right fun (h : n.val ≤ (s.br b).sup.level ∨ (s.br b).sup.level < (s.br b).supply.val) => by omega
  · rw [exec_supplyRise le, State.supplied_compare_rise enabled below above]
    refine ⟨fun still => ?_, fun down => ?_, fun low => ?_⟩
    · rw [State.takeRise_still (by rw [hB]; exact still), kept]
    · rw [State.takeRise_restores (by rw [hB]; exact down), changed]
      rfl
    · rw [State.takeRise_glitch (by rw [hB]; exact low), changed]
      rfl
  · have fallen : n.val ≤ (s.br b).supply.val := le
    rw [exec_supplyFall le, State.supplied_compare_same, kept]
    exact h.imp_right fun (h : (s.br b).supply.val ≤ (s.br b).sup.level ∨ (s.br b).sup.level < n.val) => by omega
  · rw [exec_supplyFall le, State.supplied_compare_fall enabled below above]
    refine ⟨fun still => ?_, fun restoring => ?_, fun normal => ?_⟩
    · rw [State.takeFall_still (by rw [hB]; exact still), kept]
    · rw [State.takeFall_restorePending (by rw [hB]; exact restoring), changed]
      rfl
    · rw [State.takeFall_normal (by rw [hB]; exact normal), changed]
      rfl
  · intro taken
    constructor
    · cases h : B.sup.state with
      | disabled => exact State.takeRise_still (.inl h)
      | normal => exact State.takeRise_still (.inr h)
      | restorePending => exact State.takeRise_restores (.inl h)
      | fault => exact State.takeRise_restores (.inr h)
      | lowPending => exact State.takeRise_glitch h
    · cases h : B.sup.state with
      | disabled => exact State.takeFall_still (.inl h)
      | lowPending => exact State.takeFall_still (.inr (.inl h))
      | fault => exact State.takeFall_still (.inr (.inr h))
      | restorePending => exact State.takeFall_restorePending h
      | normal => exact State.takeFall_normal h

/-- Settles O51: the part in FAULT, and a change of mode that waited. -/
theorem supplyFault : Obligations.SupplyFault := by
  refine ⟨fun s b => ?_, BranchState.inFlight_iff⟩
  intro B result inFlight t low runs
  have faulted : s.faulted b = t := s.faulted_eq b
  have pending : ((s.faulted b).br b).changePending = true ↔ B.requested ≠ B.current := by
    rw [BranchState.changePending_iff, State.faulted_br]
  rw [exec_qualifyTimerExpiry low runs, State.enterFault_eq]
  refine ⟨fun settled => ?_, fun waits => ?_⟩
  · rw [if_neg fun h => pending.1 h settled, faulted]
  · rw [if_pos (pending.2 waits), faulted]

/-- Settles O53: what a step of the branch and a choice of the Delivery Unit leave. -/
theorem branchEventFrame : Obligations.BranchEventFrame := by
  refine ⟨fun c b s t row h => ?_, fun r => rfl, branchRow_iff⟩
  obtain ⟨p, u, others, ⟨n, own⟩, step, delivered⟩ := branchRow_step row h
  have branch : ∀ d, t.br d = u.br d := fun d => congrArg (·.get d) delivered.branches
  have settings := step.settings
  rw [show State.br { s with branches := p } b = { s.br b with supply := n } from own, ← branch b] at settings
  exact ⟨fun d hd => (branch d).trans ((step.others d hd).trans (others d hd)), settings.rate, settings.odWindow,
    settings.odRetries, settings.bankA, settings.bankB, settings.enabled, settings.level, settings.qualifyTime,
    settings.restoreTime, (congrArg _ delivered.nodes).trans step.configuration, delivered.strap.trans step.strap,
    delivered.trunkRate.trans step.trunkRate, delivered.receiver.trans step.receiver, delivered.rx.trans step.rx,
    delivered.muTag.trans step.muTag, delivered.droppedResponses.trans step.droppedResponses,
    delivered.relaysDropped.trans step.relaysDropped, delivered.window.trans (congrArg (·.window) step.du),
    delivered.timeout.trans (congrArg (·.timeout) step.du), delivered.failLimit.trans (congrArg (·.failLimit) step.du),
    delivered.cause.trans step.cause, fun g => (delivered.enables g).trans (step.enables g)⟩

end Sys2Proof.SupplyEvents
end
